-- ==== Sys2Proof/Word.lean ====
section
/-! DEFINITION. The words and small data types of PND-CORE: stimulus words and their operand widths (30_encoding.md R91),
table cells (20_memory.md R64), the half-cycle index (00_scope.md R15), the tiers and FASTMODE (10_state.md R35), and
values held once per half or once per tier. -/

namespace Sys2Proof

/-- A 64-bit stimulus or response word (30_encoding.md R91, R108). -/
abbrev Word := BitVec 64

/-- A 48-bit immediate or parameter register (R91, 10_state.md R21). -/
abbrev Imm := BitVec 48

/-- A 4-bit operand field, A or B (R91). -/
abbrev Nibble := BitVec 4

/-- One 16-bit table cell (20_memory.md R64). -/
abbrev Cell := BitVec 16

/-- One 12-bit output sample (10_state.md R46). -/
abbrev Sample := BitVec 12

/-- Half-cycle index: `first` is h = 0 (rising, "high"), `second` is h = 1 (00_scope.md R15). -/
inductive Half where
  | first
  | second
deriving DecidableEq, Repr

/-- The four fast tiers, t = 0..3 (00_scope.md R8, R16). -/
inductive Tier where
  | t0
  | t1
  | t2
  | t3
deriving DecidableEq, Repr

/-- FASTMODE: `slow` is -1, `fast t` is t (10_state.md R35). -/
inductive FastMode where
  | slow
  | fast (t : Tier)
deriving DecidableEq, Repr

/-- A value held once per half-cycle, `X[0]` and `X[1]` (10_state.md R33). -/
structure PerHalf (α : Type) where
  h0 : α
  h1 : α
deriving DecidableEq, Repr

/-- A value held once per fast tier, `X[0]` to `X[3]` (20_memory.md R60). -/
structure PerTier (α : Type) where
  t0 : α
  t1 : α
  t2 : α
  t3 : α
deriving DecidableEq, Repr

/-- The table memories whose cells have no value until written, each its own address space (20_memory.md R60). -/
inductive Space where
  | wf (h : Half)
  | rt (h : Half)
  | tb (t : Tier) (h : Half)
  | wp
deriving DecidableEq, Repr

/-- The registers whose stated width does not follow from the rule that writes them (10_state.md R33, R38, R43). -/
inductive WideReg where
  | tc
  | sqDelay
  | fActual
  | ratio (h : Half)
  | pwmPer
deriving DecidableEq, Repr

end Sys2Proof
end

