-- ==== Sys2Proof/Config.lean ====
section
/-! DEFINITION. The configuration record `Cfg` (00_scope.md R8, R9) and the free values. The FIXED parameters of R8 are in
Sys2Proof/Machine/Basic.lean; the constraints of R9 and 47_noise.md R333 are `Cfg.valid` in Sys2Proof/WellFormed.lean. -/

namespace Sys2Proof

/-- The breakpoints `(c_i, y_i)` of one piecewise-linear colour map (47_noise.md R333). -/
abbrev ColorMap := List (Nat × Int)

/-- The OPEN parameters of 00_scope.md R9, one field each, frequencies in microhertz where R9 says so. -/
structure Cfg where
  minMaxDuty : Nat
  fTimer     : Nat
  tcSlow     : Nat
  tcMin      : Nat
  tcMax      : Nat
  tierT0     : Nat
  tierT1     : Nat
  tierT2     : Nat
  fMin       : Nat
  fMax       : Nat
  sqFMin     : Nat
  sqFMax     : Nat
  calNum     : Nat
  calDen     : Nat
  hrd        : Int
  lrfNum     : Nat
  lrfDen     : Nat
  ldf        : Nat
  usqT0      : Nat
  usqT1      : Nat
  usqT2      : Nat
  usqT3      : Nat
  fPwm       : Nat
  pwmPerMax  : Nat
  arbSharp   : Nat
  mapCf      : ColorMap
  mapLfc     : ColorMap
  mapMw      : ColorMap
  mapLbw     : ColorMap
  mapHbw     : ColorMap
deriving DecidableEq, Repr

/-- CFG_REF, the reference configuration of 00_scope.md R9 and 95_test_vectors.md section 2. -/
def Cfg.ref : Cfg where
  minMaxDuty := 1
  fTimer     := 84000000
  tcSlow     := 210
  tcMin      := 2
  tcMax      := 4294967295
  tierT0     := 10000000000
  tierT1     := 20000000000
  tierT2     := 40000000000
  fMin       := 1000
  fMax       := 100000000000
  sqFMin     := 1000
  sqFMax     := 42000000000000
  calNum     := 9999925
  calDen     := 10000000
  hrd        := 20
  lrfNum     := 1
  lrfDen     := 2
  ldf        := 50000
  usqT0      := 1300000000
  usqT1      := 650000000
  usqT2      := 325000000
  usqT3      := 163000000
  fPwm       := 84000000
  pwmPerMax  := 65535
  arbSharp   := 1
  mapCf      := [(0, 1), (30, 5), (500, 400), (1000, 10000)]
  mapLfc     := [(0, 1), (1000, 100)]
  mapMw      := [(0, 100), (1000, 100)]
  mapLbw     := [(0, 70), (500, 35), (1000, 0)]
  mapHbw     := [(0, 0), (500, 100), (1000, 0)]

/-- FREE VALUE (log 3). What cell `i` of a table memory holds while nothing has written it: 10_state.md R49 says that a
model must give such cells no value. -/
opaque Config.unwrittenCell (sp : Space) (i : Nat) : Cell

/-- FREE VALUE (log 4). What the `w`-bit register `r` holds when the rule that writes it gives a value `v` that does not
fit in `w` bits; the spec states no result there. -/
opaque Config.unfit (r : WideReg) (w v : Nat) : BitVec w

end Sys2Proof
end

