-- ==== Sys2Proof/Syntax.lean ====
section
/-! DEFINITION. The 23 operations of spec/opcode_table.json (30_encoding.md R95), one constructor per row with the operand
fields of its form, and the names of the 29 parameter registers (10_state.md R22 to R28). -/

namespace Sys2Proof

/-- One stimulus word that selects a row of 30_encoding.md R96. -/
inductive Instr where
  | nop
  | setfreq (imm : Imm)
  | setper (imm : Imm)
  | setduty (imm : Imm)
  | setpw (imm : Imm)
  | setshape (a : Nibble)
  | setparam (a b : Nibble) (imm : Imm)
  | tglexact
  | tglsync
  | wpt (value : Sample)
  | wpts (before after : Sample)
  | commit
  | wpclr
  | qstat (a : Nibble)
  | getp (a b : Nibble)
  | putp (a b : Nibble) (imm : Imm)
  | applyAll
  | fgstep
  | tickSlow
  | tickFast
  | tickNoise (rnd : BitVec 32)
  | tickUsq
  | tickDither
deriving DecidableEq, Repr

/-- The parameter registers by name, in bank and index order (10_state.md R22 to R28). -/
inductive Reg where
  | sAmp | sBias | sPhase | sMult | sMixMode | sW1 | sW2
  | tAmp | tBias | tPhase | tSteps
  | aVScale | aVShift | aHZoom | aHShift | aMirror
  | cWs | cWt | cWa | cBias
  | nAmp | nColor
  | qFreq | qDuty
  | fTarget | duty | shape | exact | sync
deriving DecidableEq, Repr

/-- The wave family SHAPE names (10_state.md R28). -/
inductive Shape where
  | sine
  | triangle
  | arbitrary
  | composite
  | noise
deriving DecidableEq, Repr

end Sys2Proof
end

