-- ==== Sys2Proof/Machine/Basic.lean ====
section
/-! DEFINITION. Reading and building the small data types, the FIXED parameters (00_scope.md R8) and the arithmetic
primitives (R12). -/

namespace Sys2Proof

/-- `other(h) = 1 - h` (00_scope.md R15). -/
def Half.other (h : Half) : Half :=
  match h with
  | .first => .second
  | .second => .first

/-- The half-cycle index as one bit: true for h = 1 (10_state.md R31). -/
def Half.bit (h : Half) : Bool :=
  match h with
  | .first => false
  | .second => true

/-- `X[h]`. -/
def PerHalf.get {α : Type} (p : PerHalf α) (h : Half) : α :=
  match h with
  | .first => p.h0
  | .second => p.h1

/-- `X[h] <- v`. -/
def PerHalf.set {α : Type} (p : PerHalf α) (h : Half) (v : α) : PerHalf α :=
  match h with
  | .first => { p with h0 := v }
  | .second => { p with h1 := v }

/-- The pair `f(0), f(1)`. -/
def PerHalf.make {α : Type} (f : Half → α) : PerHalf α := ⟨f .first, f .second⟩

/-- `X[t]`. -/
def PerTier.get {α : Type} (p : PerTier α) (t : Tier) : α :=
  match t with
  | .t0 => p.t0
  | .t1 => p.t1
  | .t2 => p.t2
  | .t3 => p.t3

/-- `X[t] <- v`. -/
def PerTier.set {α : Type} (p : PerTier α) (t : Tier) (v : α) : PerTier α :=
  match t with
  | .t0 => { p with t0 := v }
  | .t1 => { p with t1 := v }
  | .t2 => { p with t2 := v }
  | .t3 => { p with t3 := v }

/-- The four values `f(0)` to `f(3)`. -/
def PerTier.make {α : Type} (f : Tier → α) : PerTier α := ⟨f .t0, f .t1, f .t2, f .t3⟩

/-- FASTMODE as the integer -1..3 (10_state.md R35). -/
def FastMode.toInt (m : FastMode) : Int :=
  match m with
  | .slow => -1
  | .fast .t0 => 0
  | .fast .t1 => 1
  | .fast .t2 => 2
  | .fast .t3 => 3

namespace Machine

/-- `S[t]`, samples per full cycle in tier `t` (00_scope.md R8). -/
def samplesPerCycle (t : Tier) : Nat :=
  match t with
  | .t0 => 160
  | .t1 => 80
  | .t2 => 40
  | .t3 => 16

/-- TABLE_LEN, used samples per half-cycle table (R8). -/
def tableLen : Nat := 4096

/-- TABLE_ALLOC, allocated cells per half-cycle table (R8). -/
def tableAlloc : Nat := 4097

/-- RED_LEN, samples per reduced table (R8). -/
def redLen : Nat := 160

/-- AMP_MAX, the largest sample value (R8). -/
def ampMax : Int := 4095

/-- CENTER (00_scope.md R9, decided). -/
def center : Int := 2048

/-- WP_MAX, waypoint capacity (R8). -/
def wpMax : Nat := 4096

/-- SLOW_FAST in microhertz (R8). -/
def slowFast : Nat := 1000000000

/-- DITHER_BELOW in microhertz (R8). -/
def ditherBelow : Nat := 100000

/-- DP, dither points per window (R8). -/
def ditherPoints : Nat := 1000

/-- F_USQ in Hz (R8). -/
def fUsq : Nat := 200000

/-- A full cycle in ppm: duty 100 % (00_scope.md R14). -/
def dutyFull : Nat := 1000000

/-- The cells a table memory has (20_memory.md R60). -/
def spaceSize (sp : Space) : Nat :=
  match sp with
  | .wf _ => tableAlloc
  | .rt _ => redLen
  | .tb t _ => samplesPerCycle t
  | .wp => wpMax

/-- `tdiv(a, b)`: the quotient truncated toward zero (00_scope.md R12). -/
def tdiv (a : Int) (b : Nat) : Int := a.sign * ((a.natAbs / b : Nat) : Int)

/-- `rdiv(a, b)`: nearest, halves away from zero (R12). -/
def rdiv (a : Int) (b : Nat) : Int := a.sign * (((2 * a.natAbs + b) / (2 * b) : Nat) : Int)

/-- `rdiv(a, b)` for `a >= 0` (R12). -/
def rdivNat (a b : Nat) : Nat := (2 * a + b) / (2 * b)

/-- `fdiv(a, b)` for `a >= 0` (R12). -/
def fdiv (a b : Nat) : Nat := a / b

/-- `clamp(v, l, h)` (R12). -/
def clamp (v l h : Int) : Int := if v < l then l else if h < v then h else v

/-- `clamp(v, l, h)` on natural numbers (R12). -/
def clampNat (v l h : Nat) : Nat := if v < l then l else if h < v then h else v

/-- What a `w`-bit register holds after a rule writes the value `v`: `v` where it fits (00_scope.md R11 narrows nothing),
and a free value where it does not (log 4). -/
def fit (r : WideReg) (w v : Nat) : BitVec w :=
  if v < 2 ^ w then BitVec.ofNat w v else Config.unfit r w v

end Machine

end Sys2Proof
end

