-- ==== Sys2Proof/Machine/State.lean ====
section
/-! DEFINITION. The state of PND-CORE (10_state.md R20 to R50, 20_memory.md R60 to R66) as plain data, its reset value
(R49), and the reasons a step can stop. INVENTORY.md lists every field with its rule. -/

namespace Sys2Proof.Machine

/-- A table memory: the cells that have been written, as (cell index, cell) pairs with strictly rising indices
(20_memory.md R60). An index that is not listed has no value yet (10_state.md R49, log 3). -/
abbrev Memory := List (Nat × Cell)

/-- The 29 parameter registers, 48 bits each (10_state.md R21 to R28). -/
structure Params where
  sAmp     : Imm
  sBias    : Imm
  sPhase   : Imm
  sMult    : Imm
  sMixMode : Imm
  sW1      : Imm
  sW2      : Imm
  tAmp     : Imm
  tBias    : Imm
  tPhase   : Imm
  tSteps   : Imm
  aVScale  : Imm
  aVShift  : Imm
  aHZoom   : Imm
  aHShift  : Imm
  aMirror  : Imm
  cWs      : Imm
  cWt      : Imm
  cWa      : Imm
  cBias    : Imm
  nAmp     : Imm
  nColor   : Imm
  qFreq    : Imm
  qDuty    : Imm
  fTarget  : Imm
  duty     : Imm
  shape    : Imm
  exact    : Imm
  sync     : Imm
deriving DecidableEq, Repr

/-- The sequencing state (10_state.md R30 to R35). -/
structure Seq where
  fastMode  : FastMode
  half      : Half
  waveBit   : BitVec 32
  increment : PerHalf (BitVec 32)
  incBase   : PerHalf (BitVec 32)
  incFrac   : PerHalf Nat
  ratio     : PerHalf (BitVec 52)
  dacc      : PerHalf Nat
  seqIdx    : BitVec 8
  seqLen    : BitVec 8
deriving DecidableEq, Repr

/-- The one-bit flags and enables (10_state.md R36, R37, R45) but HALF, USQ_HALF and USQ_EXT. -/
structure Flags where
  dutyNot50   : Bool
  extreme     : Bool
  ditherOn    : Bool
  pend        : Bool
  pendHalf    : Half
  uploadTrunc : Bool
  badCmd      : Bool
  enSlow      : Bool
  enFast      : Bool
  enNoise     : Bool
  enUsq       : Bool
  enPwm       : Bool
  run         : Bool
  priorSync   : Bool
deriving DecidableEq, Repr

/-- The derived registers (10_state.md R38). -/
structure Derived where
  tc      : BitVec 32
  sqDelay : BitVec 32
  fActual : BitVec 48
  dutyAct : BitVec 20
  dutyA   : BitVec 20
deriving DecidableEq, Repr

/-- The noise filters and coefficients (10_state.md R40, R41). The filters are exact integers (log 8). -/
structure Noise where
  nfFast : Int
  nfSlow : Int
  nfAvg  : Int
  nfCnt  : BitVec 2
  cf     : BitVec 16
  lfc    : BitVec 16
  mw     : BitVec 16
  lbw    : BitVec 16
  hbw    : BitVec 16
deriving DecidableEq, Repr

/-- The unsynchronised square wave: accumulator and PWM registers (10_state.md R42, R43). -/
structure Usq where
  acc      : BitVec 32
  inc      : PerHalf (BitVec 32)
  half     : Half
  ext      : Bool
  pwmRange : BitVec 2
  pwmPer   : BitVec 16
  pwmDty   : BitVec 16
deriving DecidableEq, Repr

/-- The output registers (10_state.md R46). -/
structure Outputs where
  dacOut : Sample
  sqOut  : Bool
deriving DecidableEq, Repr

/-- The wave tables and the DutyTable (20_memory.md R61 to R65). -/
structure Tables where
  wf    : PerHalf Memory
  rt    : PerHalf Memory
  tb    : PerTier (PerHalf Memory)
  dutyT : PerHalf (PerTier Cell)
deriving DecidableEq, Repr

/-- The waypoint memory and WP_COUNT (20_memory.md R66, 10_state.md R44). -/
structure Waypoints where
  cells : Memory
  count : BitVec 13
deriving DecidableEq, Repr

/-- The rebuildable values of one half (10_state.md R47, 43_downsampler_and_tier_buffers.md R225): what `CommitHalf`
copies, and what SH holds between the two phases of a commit. -/
structure HalfRecord where
  wf        : Memory
  rt        : Memory
  tb        : Memory
  duty      : PerTier Cell
  incBase   : BitVec 32
  incFrac   : Nat
  ratio     : BitVec 52
  increment : BitVec 32
deriving DecidableEq, Repr

/-- An output event (10_state.md R50). -/
inductive Event where
  /-- `DAC(v)`: the analog output is written. -/
  | dac (v : Sample)
  /-- `SQ(b, d)`: the square-wave pin is driven to `b` with delay compensation `d`. -/
  | sq (b : Bool) (d : BitVec 32)
  /-- `SQPULSE(d)`: one brief pulse away from and back to the rest level. -/
  | sqPulse (d : BitVec 32)
  /-- `RESP(w)`: a response word to the host. -/
  | resp (w : Word)
deriving DecidableEq, Repr

/-- The state of PND-CORE (10_state.md R20). `input` (the stimulus words not yet taken, R90, log 1) and `cfg` (the
configuration record, written by no step, log 2) are the model's own. -/
structure State where
  params    : Params
  seq       : Seq
  flags     : Flags
  derived   : Derived
  noise     : Noise
  usq       : Usq
  out       : Outputs
  tables    : Tables
  waypoints : Waypoints
  shadow    : HalfRecord
  trace     : List Event
  input     : List Word
  cfg       : Cfg
deriving DecidableEq, Repr

/-- Why the machine stops with a fault: never. "PND-CORE raises no exception" and "a model's step function is total"
(60_exceptions.md R400), so there is no constructor. -/
inductive Fault where
deriving DecidableEq, Repr

/-- Why an instruction has no meaning in the model. -/
inductive Refusal where
  /-- Raised only by an arm of `exec` whose instruction has no meaning yet, of which there is none; safe. -/
  | notModelled (mnemonic : String)
deriving DecidableEq, Repr

/-- What a meaning and a step answer. -/
abbrev Result := Host.Outcome State Fault Refusal

/-- The reset column of 10_state.md R22 to R28. -/
def Params.reset : Params where
  sAmp     := 100
  sBias    := 0
  sPhase   := 0
  sMult    := 0
  sMixMode := 0
  sW1      := 100
  sW2      := 0
  tAmp     := 100
  tBias    := 0
  tPhase   := 0
  tSteps   := 0
  aVScale  := 100
  aVShift  := 0
  aHZoom   := 100
  aHShift  := 0
  aMirror  := 0
  cWs      := 50
  cWt      := 50
  cWa      := 0
  cBias    := 0
  nAmp     := 100
  nColor   := 500
  qFreq    := 1000000000
  qDuty    := 500000
  fTarget  := 1000000000
  duty     := 500000
  shape    := 0
  exact    := 0
  sync     := 0

/-- A half with nothing listed and zeros: what SH is given at reset, where it has no meaning (log 5). -/
def HalfRecord.empty : HalfRecord where
  wf        := []
  rt        := []
  tb        := []
  duty      := ⟨0, 0, 0, 0⟩
  incBase   := 0
  incFrac   := 0
  ratio     := 0
  increment := 0

/-- The state after reset under the configuration `c` (10_state.md R49, 70_reset_and_hazards.md R441). -/
def State.resetWith (c : Cfg) : State where
  params := Params.reset
  seq := {
    fastMode := .slow
    half := .first
    waveBit := 0
    increment := ⟨0, 0⟩
    incBase := ⟨0, 0⟩
    incFrac := ⟨0, 0⟩
    ratio := ⟨65536, 65536⟩
    dacc := ⟨0, 0⟩
    seqIdx := 0
    seqLen := 1 }
  flags := {
    dutyNot50 := false
    extreme := false
    ditherOn := false
    pend := false
    pendHalf := .first
    uploadTrunc := false
    badCmd := false
    enSlow := false
    enFast := false
    enNoise := false
    enUsq := false
    enPwm := false
    run := false
    priorSync := false }
  derived := { tc := 0, sqDelay := 0, fActual := 0, dutyAct := 0, dutyA := 500000 }
  noise := { nfFast := 0, nfSlow := 0, nfAvg := 0, nfCnt := 0, cf := 0, lfc := 0, mw := 0, lbw := 0, hbw := 0 }
  usq := { acc := 0, inc := ⟨0, 0⟩, half := .first, ext := false, pwmRange := 0, pwmPer := 0, pwmDty := 0 }
  out := { dacOut := 2048, sqOut := false }
  tables := {
    wf := ⟨[], []⟩
    rt := ⟨[], []⟩
    tb := ⟨⟨[], []⟩, ⟨[], []⟩, ⟨[], []⟩, ⟨[], []⟩⟩
    dutyT := ⟨⟨0, 0, 0, 0⟩, ⟨0, 0, 0, 0⟩⟩ }
  waypoints := { cells := [], count := 0 }
  shadow := HalfRecord.empty
  trace := []
  input := []
  cfg := c

/-- The state after reset under the reference configuration (10_state.md R49, 00_scope.md R9, log 2). -/
def State.reset : State := State.resetWith Cfg.ref

end Sys2Proof.Machine
end

