-- ==== Sys2Proof/Machine/Flags.lean ====
section
/-! DEFINITION. The FLAGS view and every flag computation the spec gives: FLAGS and its bit layout (10_state.md R36),
EXTREME, DUTY_NOT_50 and DITHER_ON (40_clock_and_tier.md R129), the crossing test (44_phase_accumulator.md R246), and the
setting of the advisory flags (60_exceptions.md R401). -/

namespace Sys2Proof.Machine

/-- FLAGS as a number: bit positions of 10_state.md R36, bit 0 first. -/
def flagBits (s : State) : List Bool := [
  s.seq.half.bit,
  s.flags.dutyNot50,
  s.flags.extreme,
  s.flags.ditherOn,
  s.flags.pend,
  s.flags.pendHalf.bit,
  s.flags.uploadTrunc,
  s.flags.badCmd,
  s.flags.enSlow,
  s.flags.enFast,
  s.flags.enNoise,
  s.flags.enUsq,
  s.flags.enPwm,
  s.flags.run,
  s.usq.half.bit,
  s.usq.ext,
  s.flags.priorSync]

/-- The number whose bits are `bs`, least significant first. -/
def bitsValue (bs : List Bool) : Nat :=
  match bs with
  | [] => 0
  | b :: rest => b.toNat + 2 * bitsValue rest

/-- The 17-bit FLAGS view (10_state.md R36). -/
def flagsView (s : State) : BitVec 17 := BitVec.ofNat 17 (bitsValue (flagBits s))

/-- A duty is extreme iff it is exactly 0 or exactly 1 000 000 ppm (00_scope.md R17, 10_state.md R36). -/
def isExtreme (d : Nat) : Bool := d == 0 || d == dutyFull

/-- DUTY_NOT_50 of an allowed duty (10_state.md R36). -/
def isNot50 (d : Nat) : Bool := d != 500000

/-- DITHER_ON: the slow path below 0.1 Hz (10_state.md R36, 40_clock_and_tier.md R129). -/
def isDither (fm : FastMode) (fTarget : Nat) : Bool := decide (fm = .slow) && decide (fTarget < ditherBelow)

/-- The crossing test: the accumulator after adding `inc` is less than `inc` (44_phase_accumulator.md R246). -/
def crossed (acc inc : BitVec 32) : Bool := decide (acc.toNat < inc.toNat)

/-- `level(h) = 1 if h = 0 else 0` (45_sequencer_and_sync_square.md R285). -/
def level (h : Half) : Bool :=
  match h with
  | .first => true
  | .second => false

/-- What a refused word does: it sets BADCMD and changes nothing else (30_encoding.md R101). -/
def refuse (s : State) : State := { s with flags := { s.flags with badCmd := true } }

/-- A waypoint that does not fit sets UPLOAD_TRUNC (60_exceptions.md R401). -/
def truncateUpload (s : State) : State := { s with flags := { s.flags with uploadTrunc := true } }

end Sys2Proof.Machine
end

