-- ==== Sys2Proof/Machine/Operands.lean ====
section
/-! DEFINITION. Operands: reading IMM signed or unsigned (30_encoding.md R93), naming a parameter register by (A, B)
(10_state.md R21 to R28), its range, the clamped register write (R29), the status bank (R39), the response word
(30_encoding.md R108). -/

namespace Sys2Proof.Machine

/-- `zext_48(IMM)` (00_scope.md R12, 30_encoding.md R93). -/
def zextImm (imm : Imm) : Nat := imm.toNat

/-- `sext_48(IMM)` (00_scope.md R12, 30_encoding.md R93). -/
def sextImm (imm : Imm) : Int := imm.toInt

/-- The register `x[16*a + b]`, if there is one (10_state.md R21 to R28). -/
def regAt (a b : Nibble) : Option Reg :=
  match a.toNat, b.toNat with
  | 0, 0 => some .sAmp
  | 0, 1 => some .sBias
  | 0, 2 => some .sPhase
  | 0, 3 => some .sMult
  | 0, 4 => some .sMixMode
  | 0, 5 => some .sW1
  | 0, 6 => some .sW2
  | 1, 0 => some .tAmp
  | 1, 1 => some .tBias
  | 1, 2 => some .tPhase
  | 1, 3 => some .tSteps
  | 2, 0 => some .aVScale
  | 2, 1 => some .aVShift
  | 2, 2 => some .aHZoom
  | 2, 3 => some .aHShift
  | 2, 4 => some .aMirror
  | 3, 0 => some .cWs
  | 3, 1 => some .cWt
  | 3, 2 => some .cWa
  | 3, 3 => some .cBias
  | 4, 0 => some .nAmp
  | 4, 1 => some .nColor
  | 5, 0 => some .qFreq
  | 5, 1 => some .qDuty
  | 6, 0 => some .fTarget
  | 6, 1 => some .duty
  | 6, 2 => some .shape
  | 6, 3 => some .exact
  | 6, 4 => some .sync
  | _, _ => none

/-- The least value of a register (10_state.md R22 to R28). -/
def regLo (c : Cfg) (r : Reg) : Int :=
  match r with
  | .sBias | .tBias | .aVShift | .aHShift | .cBias => -4095
  | .aHZoom => 1
  | .qFreq => c.sqFMin
  | .fTarget => c.fMin
  | _ => 0

/-- The greatest value of a register (10_state.md R22 to R28). -/
def regHi (c : Cfg) (r : Reg) : Int :=
  match r with
  | .sAmp => 100
  | .sBias => 4095
  | .sPhase => 8191
  | .sMult => 64
  | .sMixMode => 1
  | .sW1 => 100
  | .sW2 => 100
  | .tAmp => 100
  | .tBias => 4095
  | .tPhase => 8191
  | .tSteps => 4096
  | .aVScale => 1000
  | .aVShift => 4095
  | .aHZoom => 1000
  | .aHShift => 4095
  | .aMirror => 1
  | .cWs => 100
  | .cWt => 100
  | .cWa => 100
  | .cBias => 4095
  | .nAmp => 2000
  | .nColor => 1000
  | .qFreq => c.sqFMax
  | .qDuty => 1000000
  | .fTarget => c.fMax
  | .duty => 1000000
  | .shape => 4
  | .exact => 1
  | .sync => 1

/-- The register holds a signed value (10_state.md R21 to R25). -/
def regSigned (r : Reg) : Bool :=
  match r with
  | .sBias | .tBias | .aVShift | .aHShift | .cBias => true
  | _ => false

/-- The 48 bits of register `r` (10_state.md R21). -/
def getReg (p : Params) (r : Reg) : Imm :=
  match r with
  | .sAmp => p.sAmp
  | .sBias => p.sBias
  | .sPhase => p.sPhase
  | .sMult => p.sMult
  | .sMixMode => p.sMixMode
  | .sW1 => p.sW1
  | .sW2 => p.sW2
  | .tAmp => p.tAmp
  | .tBias => p.tBias
  | .tPhase => p.tPhase
  | .tSteps => p.tSteps
  | .aVScale => p.aVScale
  | .aVShift => p.aVShift
  | .aHZoom => p.aHZoom
  | .aHShift => p.aHShift
  | .aMirror => p.aMirror
  | .cWs => p.cWs
  | .cWt => p.cWt
  | .cWa => p.cWa
  | .cBias => p.cBias
  | .nAmp => p.nAmp
  | .nColor => p.nColor
  | .qFreq => p.qFreq
  | .qDuty => p.qDuty
  | .fTarget => p.fTarget
  | .duty => p.duty
  | .shape => p.shape
  | .exact => p.exact
  | .sync => p.sync

/-- Replace the 48 bits of register `r`. -/
def setReg (p : Params) (r : Reg) (v : Imm) : Params :=
  match r with
  | .sAmp => { p with sAmp := v }
  | .sBias => { p with sBias := v }
  | .sPhase => { p with sPhase := v }
  | .sMult => { p with sMult := v }
  | .sMixMode => { p with sMixMode := v }
  | .sW1 => { p with sW1 := v }
  | .sW2 => { p with sW2 := v }
  | .tAmp => { p with tAmp := v }
  | .tBias => { p with tBias := v }
  | .tPhase => { p with tPhase := v }
  | .tSteps => { p with tSteps := v }
  | .aVScale => { p with aVScale := v }
  | .aVShift => { p with aVShift := v }
  | .aHZoom => { p with aHZoom := v }
  | .aHShift => { p with aHShift := v }
  | .aMirror => { p with aMirror := v }
  | .cWs => { p with cWs := v }
  | .cWt => { p with cWt := v }
  | .cWa => { p with cWa := v }
  | .cBias => { p with cBias := v }
  | .nAmp => { p with nAmp := v }
  | .nColor => { p with nColor := v }
  | .qFreq => { p with qFreq := v }
  | .qDuty => { p with qDuty := v }
  | .fTarget => { p with fTarget := v }
  | .duty => { p with duty := v }
  | .shape => { p with shape := v }
  | .exact => { p with exact := v }
  | .sync => { p with sync := v }

/-- The value of register `r`, signed or unsigned as its table says (10_state.md R21). -/
def regValue (p : Params) (r : Reg) : Int :=
  if regSigned r then (getReg p r).toInt else (getReg p r).toNat

/-- `x[i] <- clamp(v, lo_i, hi_i)` (10_state.md R29). -/
def writeReg (r : Reg) (v : Int) (s : State) : State :=
  { s with params := setReg s.params r (BitVec.ofInt 48 (clamp v (regLo s.cfg r) (regHi s.cfg r))) }

/-- The wave family SHAPE names; a value above 4, which no write stores, reads as noise (10_state.md R28, log 7). -/
def shapeOf (p : Params) : Shape :=
  match p.shape.toNat with
  | 0 => .sine
  | 1 => .triangle
  | 2 => .arbitrary
  | 3 => .composite
  | _ => .noise

/-- The value of status register `b` of bank 7 (10_state.md R39), zero-extended but for FASTMODE. -/
def statusValue (s : State) (b : Nibble) : Imm :=
  match b.toNat with
  | 0 => BitVec.ofInt 48 s.seq.fastMode.toInt
  | 1 => s.derived.fActual
  | 2 => s.derived.dutyAct.setWidth 48
  | 3 => s.derived.tc.setWidth 48
  | 4 => s.derived.sqDelay.setWidth 48
  | 5 => (flagsView s).setWidth 48
  | 6 => s.waypoints.count.setWidth 48
  | 7 => s.seq.increment.h0.setWidth 48
  | 8 => s.seq.increment.h1.setWidth 48
  | 9 => s.seq.waveBit.setWidth 48
  | 10 => s.seq.seqIdx.setWidth 48
  | 11 => s.seq.seqLen.setWidth 48
  | 12 => s.out.dacOut.setWidth 48
  | 13 => (BitVec.ofBool s.out.sqOut).setWidth 48
  | 14 => s.derived.dutyA.setWidth 48
  | _ => (s.usq.pwmRange ++ s.usq.pwmDty ++ s.usq.pwmPer).setWidth 48

/-- What GETP answers for (A, B): a register, a status value, or 0 (48_system.md R363). -/
def getpValue (s : State) (a b : Nibble) : Imm :=
  match regAt a b with
  | some r => getReg s.params r
  | none => if a.toNat = 7 then statusValue s b else 0

/-- What QSTAT answers for a selector, if it is one of 0..2 (48_system.md R361). -/
def qstatValue (s : State) (a : Nibble) : Option Imm :=
  match a.toNat with
  | 0 => some s.derived.fActual
  | 1 => some (s.derived.dutyAct.setWidth 48)
  | 2 => some (BitVec.ofInt 48 (s.seq.fastMode.toInt + 1 + s.params.shape.toNat * 2 ^ 4 + s.params.exact.toNat * 2 ^ 8
      + s.params.sync.toNat * 2 ^ 9))
  | _ => none

/-- `{OP, A, B, value}` (30_encoding.md R108). -/
def responseWord (op : BitVec 8) (a b : Nibble) (value : Imm) : Word := op ++ a ++ b ++ value

end Sys2Proof.Machine
end

