-- ==== Sys2Proof/Machine/Ops.lean ====
section
/-! DEFINITION. The named operations over table memories and outputs that the meanings share (00_scope.md R13,
20_memory.md R60 to R69). PND-CORE raises no exception and returns from none (60_exceptions.md R400, R409), so there is
no exception entry here: what a refused word does instead is `refuse` in Sys2Proof/Machine/Flags.lean (R401). -/

namespace Sys2Proof.Machine

/-- The cell listed at index `i`. -/
def Memory.find (m : Memory) (i : Nat) : Option Cell :=
  match m with
  | [] => none
  | (k, c) :: rest => if k = i then some c else Memory.find rest i

/-- List `v` at index `i`, keeping the indices strictly rising (`MemWrite`, 00_scope.md R13). -/
def Memory.write (m : Memory) (i : Nat) (v : Cell) : Memory :=
  match m with
  | [] => [(i, v)]
  | (k, c) :: rest =>
    if i < k then (i, v) :: (k, c) :: rest
    else if i = k then (i, v) :: rest
    else (k, c) :: Memory.write rest i v

/-- The memory that lists `cells` from index `i` on. -/
def Memory.fromIndex (i : Nat) (cells : List Cell) : Memory :=
  match cells with
  | [] => []
  | c :: rest => (i, c) :: Memory.fromIndex (i + 1) rest

/-- The memory that lists `cells` from index 0: what writing a whole table cell by cell leaves. -/
def Memory.ofCells (cells : List Cell) : Memory := Memory.fromIndex 0 cells

/-- Every listed index is at least `lo`, and the indices strictly rise. -/
def Memory.rises (lo : Nat) (m : Memory) : Bool :=
  match m with
  | [] => true
  | (k, _) :: rest => decide (lo ≤ k) && Memory.rises (k + 1) rest

/-- The canonical form of a table memory of `size` cells: indices strictly rise and lie below `size`. -/
def Memory.wf (size : Nat) (m : Memory) : Bool := Memory.rises 0 m && m.all (fun p => decide (p.1 < size))

/-- The memory of a table space (20_memory.md R60). -/
def tableOf (s : State) (sp : Space) : Memory :=
  match sp with
  | .wf h => s.tables.wf.get h
  | .rt h => s.tables.rt.get h
  | .tb t h => (s.tables.tb.get t).get h
  | .wp => s.waypoints.cells

/-- `MemRead(space, i, 2)` (00_scope.md R13); a cell nothing has written gives a free value (10_state.md R49, log 3). -/
def readCell (s : State) (sp : Space) (i : Nat) : Cell :=
  match Memory.find (tableOf s sp) i with
  | some c => c
  | none => Config.unwrittenCell sp i

/-- `DUTYT[h][t]` (20_memory.md R65). -/
def dutyCount (s : State) (h : Half) (t : Tier) : Nat := ((s.tables.dutyT.get h).get t).toNat

/-- Write one waypoint entry at index `i`: `{isStep, value}` with bits 15:13 zero (20_memory.md R66). -/
def writeWaypoint (i : Nat) (isStep : Bool) (value : Sample) (s : State) : State :=
  { s with waypoints := { s.waypoints with
      cells := Memory.write s.waypoints.cells i ((0#3) ++ BitVec.ofBool isStep ++ value) } }

/-- `WP_COUNT <- n`. -/
def setWpCount (n : Nat) (s : State) : State :=
  { s with waypoints := { s.waypoints with count := BitVec.ofNat 13 n } }

/-- `emit E`: append an event to the trace (00_scope.md R13, 10_state.md R50). -/
def emit (e : Event) (s : State) : State := { s with trace := s.trace ++ [e] }

/-- `DAC_OUT <- v; emit DAC(v)` (60_exceptions.md R420). -/
def writeDac (v : Sample) (s : State) : State := emit (.dac v) { s with out := { s.out with dacOut := v } }

/-- `SQ_OUT <- b; emit SQ(b, d)` (60_exceptions.md R420). -/
def driveSq (b : Bool) (d : BitVec 32) (s : State) : State :=
  emit (.sq b d) { s with out := { s.out with sqOut := b } }

/-- The sample a table cell holds: its low 12 bits, which are the whole of it for every cell a rule writes
(20_memory.md R64, log 9). -/
def cellSample (c : Cell) : Sample := c.setWidth 12

/-- `HALF <- h`. -/
def setHalf (h : Half) (s : State) : State := { s with seq := { s.seq with half := h } }

/-- `PRIOR_SYNC <- b`. -/
def setPriorSync (b : Bool) (s : State) : State := { s with flags := { s.flags with priorSync := b } }

end Sys2Proof.Machine
end

