-- ==== Sys2Proof/Machine/Clock.lean ====
section
/-! DEFINITION. FixedPointClock and the tier selection (40_clock_and_tier.md R120 to R123). -/

namespace Sys2Proof.Machine

/-- `freqToTc(f, t)` (40_clock_and_tier.md R121). -/
def freqToTc (c : Cfg) (f : Nat) (t : Tier) : Nat :=
  clampNat (rdivNat (c.fTimer * 1000000) (f * samplesPerCycle t)) c.tcMin c.tcMax

/-- `tcToFreq(tc, t)` in microhertz (40_clock_and_tier.md R122). -/
def tcToFreq (c : Cfg) (tc : Nat) (t : Tier) : Nat := rdivNat (c.fTimer * 1000000) (tc * samplesPerCycle t)

/-- F_SLOW = F_TIMER / TC_SLOW, ticks per second (00_scope.md R9, 44_phase_accumulator.md R240). -/
def fSlow (c : Cfg) : Nat := fdiv c.fTimer c.tcSlow

/-- The tier for a target frequency `f` and EXACT (40_clock_and_tier.md R123). -/
def tierFor (c : Cfg) (f : Nat) (exact : Bool) : FastMode :=
  if exact then .slow
  else if f < slowFast then .slow
  else if f < c.tierT0 then .fast .t0
  else if f < c.tierT1 then .fast .t1
  else if f < c.tierT2 then .fast .t2
  else .fast .t3

/-- `selectTier()` (40_clock_and_tier.md R123). -/
def selectTier (s : State) : FastMode := tierFor s.cfg s.params.fTarget.toNat (s.params.exact == 1)

end Sys2Proof.Machine
end

