-- ==== Sys2Proof/Machine/Phase.lean ====
section
/-! DEFINITION. PhaseAccumulatorEngine, the derivation of the step sizes (44_phase_accumulator.md R241 to R244). -/

namespace Sys2Proof.Machine

/-- What `SlowDerive` gives: DUTYA, EXTREME, the ideal steps in thousandths and the re-basing ratios. -/
structure SlowSteps where
  dutyA   : Nat
  extreme : Bool
  step    : PerHalf Nat
  ratio   : PerHalf Nat
deriving DecidableEq, Repr

/-- `DMIN`: one tick's share of a cycle, in ppm (44_phase_accumulator.md R241). -/
def dutyMin (f rate : Nat) : Nat := min (fdiv (f + rate - 1) rate) 500000

/-- `DUTYA`, the allowed duty (44_phase_accumulator.md R241). -/
def allowedDuty (f d rate : Nat) : Nat :=
  if isExtreme d then d else clampNat d (dutyMin f rate) (dutyFull - dutyMin f rate)

/-- `DA[h]` (44_phase_accumulator.md R241). -/
def dutyShare (dutyA : Nat) (h : Half) : Nat :=
  match h with
  | .first => dutyA
  | .second => dutyFull - dutyA

/-- The calibration factor `(CN, CD)` (44_phase_accumulator.md R242). -/
def calFactor (c : Cfg) (cal : Bool) : Nat × Nat := if cal then (c.calNum, c.calDen) else (1, 1)

/-- The ideal step of a half with duty share `da > 0`, in thousandths (44_phase_accumulator.md R242). -/
def idealStep (f cn cd rate da : Nat) : Nat := min (fdiv (f * cn * 2 ^ 33 * 500) (cd * rate * da)) ((2 ^ 32 - 1) * 1000)

/-- `I[h]`: a half with no share copies the other half's step (44_phase_accumulator.md R242). -/
def stepFor (f cn cd rate dutyA : Nat) (h : Half) : Nat :=
  if 0 < dutyShare dutyA h then idealStep f cn cd rate (dutyShare dutyA h)
  else idealStep f cn cd rate (dutyShare dutyA h.other)

/-- `RATIO[h]` from the step of the half left and of the half entered (44_phase_accumulator.md R243). -/
def ratioFor (own other : Nat) : Nat := if 0 < own then fdiv (other * 65536) own else 65536

/-- `SlowDerive(f, d, cal, F)` (44_phase_accumulator.md R241 to R243). -/
def slowDerive (c : Cfg) (f d : Nat) (cal : Bool) (rate : Nat) : SlowSteps :=
  let da := allowedDuty f d rate
  let (cn, cd) := calFactor c cal
  let step := PerHalf.make (stepFor f cn cd rate da)
  { dutyA := da
    extreme := isExtreme da
    step := step
    ratio := PerHalf.make fun h => ratioFor (step.get h) (step.get h.other) }

/-- `n.F_ACTUAL` of the slow path, in microhertz (44_phase_accumulator.md R244). -/
def slowActual (c : Cfg) (cal : Bool) (n : SlowSteps) : Nat :=
  let (cn, cd) := calFactor c cal
  let i0 := n.step.h0
  let i1 := n.step.h1
  if n.extreme then
    rdivNat (fSlow c * 1000000 * (if n.dutyA = dutyFull then i0 else i1) * cd) (2 ^ 32 * 1000 * cn)
  else if i0 + i1 = 0 then 0
  else rdivNat (fSlow c * 1000000 * i0 * i1 * cd) (2 ^ 32 * 1000 * (i0 + i1) * cn)

/-- A step of `i` thousandths rounded to the nearest integer and capped (43_downsampler_and_tier_buffers.md R225,
46_unsynced_square.md R312). -/
def roundStep (i : Nat) : BitVec 32 := BitVec.ofNat 32 (min (fdiv (i + 500) 1000) (2 ^ 32 - 1))

/-- The whole part of a step of `i` thousandths, capped (43_downsampler_and_tier_buffers.md R225). -/
def wholeStep (i : Nat) : BitVec 32 := BitVec.ofNat 32 (min (fdiv i 1000) (2 ^ 32 - 1))

end Sys2Proof.Machine
end

