-- ==== Sys2Proof/Machine/Sampler.lean ====
section
/-! DEFINITION. FastModeSampler: the reduction, the duty counts and the tier buffers (43_downsampler_and_tier_buffers.md
R211 to R217). -/

namespace Sys2Proof.Machine

/-- `Reduce(WFh)`: 160 cells (43_downsampler_and_tier_buffers.md R211). -/
def reduceCells (wf : List Cell) : List Cell := (List.range redLen).map fun k => wf.getD (fdiv (k * 128) 5) 0

/-- The count of the first half in tier `t` for a duty `d` (43_downsampler_and_tier_buffers.md R213). -/
def firstCount (c : Cfg) (d : Nat) (t : Tier) : Nat :=
  if d = 0 then 0
  else if d = dutyFull then samplesPerCycle t
  else clampNat (fdiv (d * samplesPerCycle t + 500000) 1000000) c.minMaxDuty (samplesPerCycle t - c.minMaxDuty)

/-- `DutyCounts(d)` for half `h` and tier `t` (43_downsampler_and_tier_buffers.md R213). -/
def countFor (c : Cfg) (d : Nat) (h : Half) (t : Tier) : Nat :=
  match h with
  | .first => firstCount c d t
  | .second => samplesPerCycle t - firstCount c d t

/-- The four counts of half `h` as DutyTable cells (43_downsampler_and_tier_buffers.md R213). -/
def dutyCells (c : Cfg) (d : Nat) (h : Half) : PerTier Cell := PerTier.make fun t => BitVec.ofNat 16 (countFor c d h t)

/-- `BuildTB(RTh, D, t)`: `S[t]` cells (43_downsampler_and_tier_buffers.md R217). -/
def buildTB (rt : List Cell) (d : Nat) (t : Tier) : List Cell :=
  if d = 0 then List.replicate (samplesPerCycle t) (BitVec.ofInt 16 center)
  else (List.range (samplesPerCycle t)).map fun k => rt.getD (fdiv (min k (d - 1) * 160) d) 0

end Sys2Proof.Machine
end

