-- ==== Sys2Proof/Machine/Wave.lean ====
section
/-! DEFINITION. WaveTableBuilder: the render functions and the four tables (41_wavetable_builder.md R160 to R185). -/

namespace Sys2Proof.Machine

/-- `SIN15(a)` for any integer angle in table positions (41_wavetable_builder.md R162). -/
def sin15 (a : Int) : Int :=
  let a' := (a % 8192).toNat
  let r := a' % 2048
  match a' / 2048 with
  | 0 => qsin r
  | 1 => qsin (2048 - r)
  | 2 => -(qsin r : Int)
  | _ => -(qsin (2048 - r) : Int)

/-- The mixed sine of `zcS` at angle `a1`, before the amplitude (41_wavetable_builder.md R163). -/
def sineMix (p : Params) (a1 : Nat) : Int :=
  let s1 := sin15 a1
  if p.sMult.toNat = 0 then s1
  else
    let s2 := sin15 ((p.sMult.toNat * a1 % 8192 : Nat) : Int)
    if p.sMixMode.toNat = 0 then
      clamp (rdiv (p.sW1.toNat * s1 + p.sW2.toNat * s2) 100) (-32767) 32767
    else
      rdiv ((p.sW1.toNat * s1) * (p.sW2.toNat * s2)) (100 * 100 * 32767)

/-- `zcS(j, amp)`, the zero-centred sine (41_wavetable_builder.md R163). -/
def zcS (p : Params) (j amp : Nat) : Int :=
  rdiv ((amp * 2047 : Nat) * sineMix p ((j + p.sPhase.toNat + 6144) % 8192)) (100 * 32767)

/-- The height of the triangle's rising ramp at place `u` in 0..4095: plain (41_wavetable_builder.md R167), or in `n`
steps counted backward from the reversal point (R168). -/
def rampHeight (n u amp : Nat) : Int :=
  if n = 0 then rdiv ((amp * 2047 : Nat) * (2 * (u : Int) - 4095)) (100 * 4095)
  else
    let w := fdiv 4096 n
    let q := fdiv (4095 - u) w
    rdiv ((amp * 2047 : Nat) * ((n : Int) - 2 * (min q n : Nat))) (100 * n)

/-- `zcT(j, amp)`, the zero-centred triangle (41_wavetable_builder.md R167, R168). -/
def zcT (p : Params) (j amp : Nat) : Int :=
  let q := (j + p.tPhase.toNat) % 8192
  let v := rampHeight p.tSteps.toNat (q % 4096) amp
  if q < 4096 then v else -v

/-- One waypoint position `(vin, vout, stepped)` (41_wavetable_builder.md R169). -/
structure Position where
  vin     : Nat
  vout    : Nat
  stepped : Bool
deriving DecidableEq, Repr

/-- Bits 11:0 of a waypoint entry, its value (20_memory.md R66). -/
def wpValue (c : Cell) : Nat := (c.extractLsb' 0 12).toNat

/-- Bit 12 of a waypoint entry, isStep (20_memory.md R66). -/
def wpIsStep (c : Cell) : Bool := c.getLsbD 12

/-- `Positions()` over the valid waypoint entries: a stepped entry and the next one make one position
(41_wavetable_builder.md R169). -/
def positionsOf (entries : List Cell) : List Position :=
  match entries with
  | [] => []
  | [c] => [⟨wpValue c, wpValue c, false⟩]
  | c :: d :: rest =>
    if wpIsStep c then ⟨wpValue c, wpValue d, true⟩ :: positionsOf rest
    else ⟨wpValue c, wpValue c, false⟩ :: positionsOf (d :: rest)

/-- The valid waypoint entries, 0..WP_COUNT-1 (20_memory.md R66). -/
def wpEntries (s : State) : List Cell := (List.range s.waypoints.count.toNat).map (fun i => readCell s .wp i)

/-- `Positions()` (41_wavetable_builder.md R169). -/
def positions (s : State) : List Position := positionsOf (wpEntries s)

/-- `at(k)`: the source cell of position `k` of `n` (41_wavetable_builder.md R170). -/
def placeOf (n k : Nat) : Nat := fdiv (k * 4096) n

/-- `H`, the hold length in source cells (41_wavetable_builder.md R171). -/
def holdLength (fm : FastMode) : Nat :=
  match fm with
  | .slow => 0
  | .fast t => fdiv 4096 (samplesPerCycle t)

/-- The position after `prev` and before `next` is a sharp peak (41_wavetable_builder.md R171). -/
def isPeak (sharp : Nat) (prev cur next : Position) : Bool :=
  let din := (cur.vin : Int) - prev.vout
  let dout := (next.vin : Int) - cur.vout
  !cur.stepped && decide (din * dout < 0) && decide (sharp ≤ din.natAbs) && decide (sharp ≤ dout.natAbs)

/-- The source cells from position `k` up to the next one: interpolation (41_wavetable_builder.md R170), with the peak hold
of R171 over the first `H` of them. -/
def arbSegment (sharp : Nat) (fm : FastMode) (ps : List Position) (k : Nat) : List Int :=
  let n := ps.length
  let cur := ps.getD k ⟨0, 0, false⟩
  let next := ps.getD ((k + 1) % n) ⟨0, 0, false⟩
  let prev := ps.getD ((k + n - 1) % n) ⟨0, 0, false⟩
  let len := placeOf n (k + 1) - placeOf n k
  let held := decide (0 < holdLength fm) && decide (2 ≤ n) && isPeak sharp prev cur next
  (List.range len).map fun o =>
    if held && decide (o < holdLength fm) then (cur.vout : Int)
    else (cur.vout : Int) + rdiv (((next.vin : Int) - cur.vout) * o) len

/-- `ArbSrc(fm)`: one full cycle of 4096 source values (41_wavetable_builder.md R170, R171). -/
def arbSrc (sharp : Nat) (fm : FastMode) (ps : List Position) : List Int :=
  if ps.length = 0 then List.replicate 4096 2048
  else (List.range ps.length).flatMap (arbSegment sharp fm ps)

/-- `j'`: mirror mode (41_wavetable_builder.md R175). -/
def mirrored (p : Params) (j : Nat) : Nat := if p.aMirror.toNat = 1 ∧ 4096 ≤ j then 8191 - j else j

/-- `sidx`: zoom, shift and clamp of the source index (41_wavetable_builder.md R176). -/
def sourceIndex (p : Params) (j : Nat) : Nat :=
  (clamp (tdiv (((fdiv (mirrored p j) 2 : Nat) - (2048 : Int)) * 100) p.aHZoom.toNat + 2048 + p.aHShift.toInt) 0 4095).toNat

/-- `zcA(j, amp, A)`, the zero-centred arbitrary wave (41_wavetable_builder.md R175 to R177). -/
def zcA (p : Params) (src : List Int) (j amp : Nat) : Int :=
  rdiv ((amp : Int) * (src.getD (sourceIndex p j) 2048 - 2048)) 100

/-- `zs(amp)`: the falling half of a single sine is the inversion of the rising one (41_wavetable_builder.md R164, R185). -/
def zs (p : Params) (h : Half) (i amp : Nat) : Int :=
  match h with
  | .first => zcS p i amp
  | .second => if p.sMult.toNat = 0 then -(zcS p i amp) else zcS p (4096 + i) amp

/-- `j = 4096*h + i` (00_scope.md R15). -/
def cyclePlace (h : Half) (i : Nat) : Nat :=
  match h with
  | .first => i
  | .second => 4096 + i

/-- The value of cell `i` of half `h` before the last clamp (41_wavetable_builder.md R185). SHAPE = 4 renders no table;
it is given CENTER and never asked for (40_clock_and_tier.md R129). -/
def waveLevel (p : Params) (src : List Int) (h : Half) (i : Nat) : Int :=
  let j := cyclePlace h i
  match shapeOf p with
  | .sine => center + p.sBias.toInt + zs p h i p.sAmp.toNat
  | .triangle => center + p.tBias.toInt + zcT p j p.tAmp.toNat
  | .arbitrary => center + p.aVShift.toInt + zcA p src j p.aVScale.toNat
  | .composite => center + p.cBias.toInt + zs p h i p.cWs.toNat + zcT p j p.cWt.toNat + zcA p src j p.cWa.toNat
  | .noise => center

/-- A level clamped to 0..4095, as a table cell (41_wavetable_builder.md R185). -/
def levelCell (v : Int) : Cell := BitVec.ofInt 16 (clamp v 0 ampMax)

/-- The 4097 cells of half `h`; cell 4096 is the guard copy of cell 4095 (41_wavetable_builder.md R185, 20_memory.md
R61). -/
def waveCells (p : Params) (src : List Int) (h : Half) : List Cell :=
  (List.range tableAlloc).map fun i => levelCell (waveLevel p src h (min i 4095))

/-- `BuildWave(fm)` (41_wavetable_builder.md R185). -/
def buildWave (s : State) (fm : FastMode) : PerHalf (List Cell) :=
  let src := arbSrc s.cfg.arbSharp fm (positions s)
  PerHalf.make (waveCells s.params src)

end Sys2Proof.Machine
end

