-- ==== Sys2Proof/Machine/Derive.lean ====
section
/-! DEFINITION. `Derive(fm)`: every rebuildable value from the parameter registers, the waypoints, the configuration and
the tier (40_clock_and_tier.md R129). -/

namespace Sys2Proof.Machine

/-- The values both halves share: the derived registers and three flags (43_downsampler_and_tier_buffers.md R225). -/
structure CommonRecord where
  regs      : Derived
  extreme   : Bool
  dutyNot50 : Bool
  ditherOn  : Bool
deriving DecidableEq, Repr

/-- The record `n` of 40_clock_and_tier.md R129. -/
structure Derivation where
  common : CommonRecord
  halves : PerHalf HalfRecord
deriving DecidableEq, Repr

/-- The numbers `Derive` computes before they are put into registers (40_clock_and_tier.md R129). -/
structure RateNumbers where
  tc      : Nat
  fActual : Nat
  dutyAct : Nat
  dutyA   : Nat
  extreme : Bool
  step    : PerHalf Nat
  ratio   : PerHalf Nat
deriving DecidableEq, Repr

/-- The rates of the slow path (40_clock_and_tier.md R129, row fm = -1). -/
def slowNumbers (c : Cfg) (f d : Nat) (exact : Bool) : RateNumbers :=
  let n := slowDerive c f d exact (fSlow c)
  { tc := c.tcSlow
    fActual := slowActual c exact n
    dutyAct := n.dutyA
    dutyA := n.dutyA
    extreme := n.extreme
    step := n.step
    ratio := n.ratio }

/-- The rates of tier `t` (40_clock_and_tier.md R129, row fm >= 0). -/
def fastNumbers (c : Cfg) (f d : Nat) (t : Tier) : RateNumbers :=
  let tc := freqToTc c f t
  { tc := tc
    fActual := tcToFreq c tc t
    dutyAct := rdivNat (countFor c d .first t * 1000000) (samplesPerCycle t)
    dutyA := d
    extreme := isExtreme d
    step := ⟨0, 0⟩
    ratio := ⟨65536, 65536⟩ }

/-- The rates for FASTMODE `fm` from F_TARGET, DUTY and EXACT (40_clock_and_tier.md R129). -/
def rateNumbers (s : State) (fm : FastMode) : RateNumbers :=
  match fm with
  | .slow => slowNumbers s.cfg s.params.fTarget.toNat s.params.duty.toNat (s.params.exact == 1)
  | .fast t => fastNumbers s.cfg s.params.fTarget.toNat s.params.duty.toNat t

/-- `n.SQ_DELAY` from the divisor, the actual duty and EXTREME (45_sequencer_and_sync_square.md R288). -/
def sqDelayFor (c : Cfg) (tc dutyAct : Nat) (extreme : Bool) : Nat :=
  let x := ((dutyAct : Int) - 500000).natAbs
  let fn : Nat := if extreme then 1 else c.ldf
  let fd : Nat := if extreme then 1 else x + c.ldf
  (max 0 (tdiv (((tc : Int) - c.hrd) * c.lrfNum * fn) (c.lrfDen * fd))).toNat

/-- The registers and flags both halves share (40_clock_and_tier.md R129). -/
def commonOf (s : State) (fm : FastMode) (r : RateNumbers) : CommonRecord where
  regs := {
    tc := fit .tc 32 r.tc
    sqDelay := fit .sqDelay 32 (sqDelayFor s.cfg r.tc r.dutyAct r.extreme)
    fActual := fit .fActual 48 r.fActual
    dutyAct := BitVec.ofNat 20 r.dutyAct
    dutyA := BitVec.ofNat 20 r.dutyA }
  extreme := r.extreme
  dutyNot50 := isNot50 r.dutyA
  ditherOn := isDither fm s.params.fTarget.toNat

/-- The nominal `Increment` of an ideal step: its whole part when dithering is on, its nearest integer otherwise
(43_downsampler_and_tier_buffers.md R225). -/
def nominalStep (ditherOn : Bool) (i : Nat) : BitVec 32 := if ditherOn then wholeStep i else roundStep i

/-- The tier buffer of half `h`, built only for a fast tier (40_clock_and_tier.md R129). -/
def tbFor (s : State) (fm : FastMode) (rt : List Cell) (h : Half) : Memory :=
  match fm with
  | .slow => []
  | .fast t => Memory.ofCells (buildTB rt (countFor s.cfg s.params.duty.toNat h t) t)

/-- The values of half `h` (40_clock_and_tier.md R129, 43_downsampler_and_tier_buffers.md R225). -/
def halfRecordOf (s : State) (fm : FastMode) (r : RateNumbers) (h : Half) : HalfRecord :=
  let wf := (buildWave s fm).get h
  let rt := reduceCells wf
  { wf := Memory.ofCells wf
    rt := Memory.ofCells rt
    tb := tbFor s fm rt h
    duty := dutyCells s.cfg s.params.duty.toNat h
    incBase := wholeStep (r.step.get h)
    incFrac := r.step.get h % 1000
    ratio := fit (.ratio h) 52 (r.ratio.get h)
    increment := nominalStep (isDither fm s.params.fTarget.toNat) (r.step.get h) }

/-- `Derive(fm)` (40_clock_and_tier.md R129). -/
def derive (s : State) (fm : FastMode) : Derivation :=
  let r := rateNumbers s fm
  { common := commonOf s fm r
    halves := PerHalf.make (halfRecordOf s fm r) }

end Sys2Proof.Machine
end

