-- ==== Sys2Proof/Machine/Commit.lean ====
section
/-! DEFINITION. The commit of a derived record in two phases (43_downsampler_and_tier_buffers.md R225 to R227). -/

namespace Sys2Proof.Machine

/-- `CommitCommon(n)` (43_downsampler_and_tier_buffers.md R225). -/
def commitCommon (n : CommonRecord) (s : State) : State :=
  { s with
    derived := n.regs
    flags := { s.flags with extreme := n.extreme, dutyNot50 := n.dutyNot50, ditherOn := n.ditherOn } }

/-- The tables after `CommitHalf` (43_downsampler_and_tier_buffers.md R225). -/
def commitTables (r : HalfRecord) (h : Half) (fm : FastMode) (t : Tables) : Tables where
  wf := t.wf.set h r.wf
  rt := t.rt.set h r.rt
  tb :=
    match fm with
    | .slow => t.tb
    | .fast k => t.tb.set k ((t.tb.get k).set h r.tb)
  dutyT := t.dutyT.set h r.duty

/-- The step sizes after `CommitHalf` (43_downsampler_and_tier_buffers.md R225). -/
def commitSteps (r : HalfRecord) (h : Half) (q : Seq) : Seq :=
  { q with
    incBase := q.incBase.set h r.incBase
    incFrac := q.incFrac.set h r.incFrac
    ratio := q.ratio.set h r.ratio
    increment := q.increment.set h r.increment }

/-- `CommitHalf(n, h)` (43_downsampler_and_tier_buffers.md R225). -/
def commitHalf (r : HalfRecord) (h : Half) (s : State) : State :=
  { s with
    tables := commitTables r h s.seq.fastMode s.tables
    seq := commitSteps r h s.seq }

/-- `SH <- n; PEND_HALF <- h; PEND <- 1` (43_downsampler_and_tier_buffers.md R226); SH keeps the half still to be
committed (10_state.md R47). -/
def setPending (r : HalfRecord) (h : Half) (s : State) : State :=
  { s with shadow := r, flags := { s.flags with pend := true, pendHalf := h } }

/-- `CommitTwoPhase(n)`, phase A (43_downsampler_and_tier_buffers.md R226). -/
def commitTwoPhase (n : Derivation) (s : State) : State :=
  let h := s.seq.half
  setPending (n.halves.get h) h (commitHalf (n.halves.get h.other) h.other (commitCommon n.common s))

/-- `PEND <- 0`. PEND_HALF keeps its value (log 11). -/
def clearPending (s : State) : State := { s with flags := { s.flags with pend := false } }

/-- `FinishPending()`, phase B (43_downsampler_and_tier_buffers.md R227). -/
def finishPending (s : State) : State :=
  if s.flags.pend then clearPending (commitHalf s.shadow s.flags.pendHalf s) else s

end Sys2Proof.Machine
end

