-- ==== Sys2Proof/Machine/NoiseUnit.lean ====
section
/-! DEFINITION. NoiseSynthesizer: the colour maps, the filters and the output (47_noise.md R330 to R335). -/

namespace Sys2Proof.Machine

/-- `pwl(map, c)` (47_noise.md R333). Past the last breakpoint, where no valid map is asked, it keeps the last value. -/
def pwl (m : ColorMap) (c : Nat) : Int :=
  match m with
  | [] => 0
  | [p] => p.2
  | p :: q :: rest =>
    if c ≤ q.1 then p.2 + tdiv ((q.2 - p.2) * ((c : Int) - p.1)) (q.1 - p.1) else pwl (q :: rest) c

/-- `NoiseCoeffs()` (47_noise.md R334). -/
def noiseCoeffs (s : State) : State :=
  let c := s.params.nColor.toNat
  { s with noise := { s.noise with
    cf := BitVec.ofInt 16 (pwl s.cfg.mapCf c)
    lfc := BitVec.ofInt 16 (pwl s.cfg.mapLfc c)
    mw := BitVec.ofInt 16 (pwl s.cfg.mapMw c)
    lbw := BitVec.ofInt 16 (pwl s.cfg.mapLbw c)
    hbw := BitVec.ofInt 16 (pwl s.cfg.mapHbw c) } }

/-- `new`: the low 16 bits of the random word, signed, in Q16.16 (47_noise.md R331). -/
def noiseSample (rnd : BitVec 32) : Int := (rnd.extractLsb' 0 16).toInt * 65536

/-- One exponential filter update (47_noise.md R332). -/
def filterStep (acc new : Int) (num den : Nat) : Int := acc + tdiv ((new - acc) * num) den

/-- The three filters after one tick (47_noise.md R332). -/
def filterNoise (new : Int) (n : Noise) : Noise :=
  let cnt := n.nfCnt + 1
  let avg1 := filterStep n.nfAvg new n.cf.toNat 10000
  { n with
    nfFast := filterStep n.nfFast new 1 5
    nfAvg := filterStep avg1 new n.cf.toNat 10000
    nfCnt := cnt
    nfSlow := if cnt = 0 then filterStep n.nfSlow new n.lfc.toNat 100 else n.nfSlow }

/-- `mix` (47_noise.md R335). -/
def noiseMix (n : Noise) : Int :=
  tdiv (tdiv n.nfAvg 16 * n.mw.toNat) 100
    + tdiv (tdiv n.nfSlow 16 * n.lbw.toNat) 70
    + tdiv (tdiv (n.nfFast - n.nfAvg) 16 * n.hbw.toNat) 1000

/-- `out` before it is put into DAC_OUT (47_noise.md R335). -/
def noiseLevel (amp : Nat) (n : Noise) : Int := clamp (tdiv (noiseMix n * amp) (100 * 65536) + center) 0 ampMax

end Sys2Proof.Machine
end

