-- ==== Sys2Proof/Machine/Square.lean ====
section
/-! DEFINITION. The square wave: the synchronised toggle (45_sequencer_and_sync_square.md R285, R286) and the derivation of
the unsynchronised one (46_unsynced_square.md R311, R312). -/

namespace Sys2Proof.Machine

/-- Which kind of half-cycle boundary (45_sequencer_and_sync_square.md R285). -/
inductive BoundaryKind where
  | flip
  | noflip
deriving DecidableEq, Repr

/-- `Boundary(kind)` (45_sequencer_and_sync_square.md R285, R286). -/
def boundary (kind : BoundaryKind) (s : State) : State :=
  if s.params.sync = 0 then s
  else
    match kind with
    | .flip => driveSq (level s.seq.half) s.derived.sqDelay s
    | .noflip => emit (.sqPulse s.derived.sqDelay) s

/-- `EN_USQ <- 0; EN_PWM <- 0`: teardown of the independent square wave (45_sequencer_and_sync_square.md R290). -/
def squareOff (s : State) : State := { s with flags := { s.flags with enUsq := false, enPwm := false } }

/-- The PWM range of a frequency, 0..3 (46_unsynced_square.md R311). -/
def pwmRangeOf (c : Cfg) (f : Nat) : Nat :=
  if c.usqT0 ≤ f then 0 else if c.usqT1 ≤ f then 1 else if c.usqT2 ≤ f then 2 else 3

/-- The PWM path of `DeriveSquare` (46_unsynced_square.md R312). -/
def startPwm (f d : Nat) (s : State) : State :=
  let r := pwmRangeOf s.cfg f
  let per := fit .pwmPer 16 (clampNat (rdivNat (s.cfg.fPwm * 1000000) (2 ^ r * f)) 2 s.cfg.pwmPerMax)
  { s with
    usq := { s.usq with
      pwmRange := BitVec.ofNat 2 r
      pwmPer := per
      pwmDty := BitVec.ofNat 16 (rdivNat (per.toNat * d) 1000000) }
    flags := { s.flags with enPwm := true } }

/-- The half the independent square wave starts on (46_unsynced_square.md R312). -/
def firstHalf (da : Nat) : Half := if 0 < da then .first else .second

/-- The accumulator path of `DeriveSquare` (46_unsynced_square.md R312, R315). -/
def startAccumulator (f d : Nat) (s : State) : State :=
  let n := slowDerive s.cfg f d false fUsq
  let h := firstHalf n.dutyA
  let s1 := { s with usq := { s.usq with
    inc := PerHalf.make fun k => roundStep (n.step.get k)
    ext := n.extreme
    acc := 0
    half := h } }
  let s2 := driveSq (level h) 0 s1
  { s2 with flags := { s2.flags with enUsq := true } }

/-- `DeriveSquare()` (46_unsynced_square.md R312). -/
def deriveSquare (s : State) : State :=
  let s0 := squareOff s
  if s0.params.sync = 1 ∨ s0.flags.run = false then s0
  else if s0.cfg.usqT3 ≤ s0.params.qFreq.toNat then startPwm s0.params.qFreq.toNat s0.params.qDuty.toNat s0
  else startAccumulator s0.params.qFreq.toNat s0.params.qDuty.toNat s0

end Sys2Proof.Machine
end

