-- ==== Sys2Proof/Machine/Update.lean ====
section
/-! DEFINITION. The update and mode-switch procedures (40_clock_and_tier.md R128, R130). -/

namespace Sys2Proof.Machine

/-- Every enable off and a pending phase B dropped: the teardown of `ModeSwitch` (40_clock_and_tier.md R130). -/
def teardown (s : State) : State :=
  { s with flags := { s.flags with
    enSlow := false, enFast := false, enNoise := false, enUsq := false, enPwm := false, pend := false } }

/-- FASTMODE, the whole derivation and the restart of the phase (40_clock_and_tier.md R130). -/
def installWave (fm : FastMode) (s : State) : State :=
  let s0 := { s with seq := { s.seq with fastMode := fm } }
  let n := derive s0 fm
  let s1 := commitHalf n.halves.h1 .second (commitHalf n.halves.h0 .first (commitCommon n.common s0))
  { s1 with seq := { s1.seq with waveBit := 0, dacc := ⟨0, 0⟩, seqIdx := 0 } }

/-- The first half of nonzero length in tier `t` (40_clock_and_tier.md R130). -/
def startHalf (s : State) (t : Tier) : Half := if 0 < dutyCount s .first t then .first else .second

/-- `SEQ_LEN <- max(DUTYT[h][t], 1)` (40_clock_and_tier.md R130, 45_sequencer_and_sync_square.md R281). -/
def latchLength (h : Half) (t : Tier) (s : State) : State :=
  { s with seq := { s.seq with seqLen := BitVec.ofNat 8 (max (dutyCount s h t) 1) } }

/-- Start the tick source of the path (40_clock_and_tier.md R130). -/
def enableWave (fm : FastMode) (s : State) : State :=
  match fm with
  | .fast t =>
    let h := startHalf s t
    let s1 := latchLength h t (setHalf h s)
    { s1 with flags := { s1.flags with enFast := true } }
  | .slow =>
    let s1 := setHalf (if 0 < s.derived.dutyA.toNat then .first else .second) s
    { s1 with flags := { s1.flags with enSlow := true } }

/-- `if SYNC = 1: SQ_OUT <- level(HALF); emit SQ(SQ_OUT, 0)` (40_clock_and_tier.md R130, 45_sequencer_and_sync_square.md
R290). -/
def syncLevel (s : State) : State := if s.params.sync = 1 then driveSq (level s.seq.half) 0 s else s

/-- The wave branch of `ModeSwitch` (40_clock_and_tier.md R130). -/
def startWave (s : State) : State :=
  let fm := selectTier s
  syncLevel (enableWave fm (installWave fm s))

/-- The noise branch of `ModeSwitch` (40_clock_and_tier.md R130). -/
def startNoise (s : State) : State := { s with flags := { s.flags with enNoise := true } }

/-- `ModeSwitch()` (40_clock_and_tier.md R130). -/
def modeSwitch (s : State) : State :=
  let s0 := noiseCoeffs (teardown s)
  deriveSquare (if shapeOf s0.params = .noise then startNoise s0 else startWave s0)

/-- `Update()` (40_clock_and_tier.md R128). -/
def update (s : State) : State :=
  if s.flags.run = false then s
  else if shapeOf s.params = .noise then noiseCoeffs s
  else if selectTier s = s.seq.fastMode then commitTwoPhase (derive s (selectTier s)) s
  else modeSwitch s

end Sys2Proof.Machine
end

