-- ==== Sys2Proof/Machine/HostClock.lean ====
section
/-! DEFINITION. Meanings of SETFREQ, SETPER and TGLEXACT (40_clock_and_tier.md R125 to R127). -/

namespace Sys2Proof.Machine

/-- SETFREQ (40_clock_and_tier.md R125). -/
def execSetfreq (imm : Imm) (s : State) : Result := .next (update (writeReg .fTarget (zextImm imm) (finishPending s)))

/-- The frequency of a period in ms; 0 is read as the shortest period (40_clock_and_tier.md R126). -/
def periodFreq (c : Cfg) (ms : Nat) : Nat := if ms = 0 then c.fMax else rdivNat 1000000000 ms

/-- SETPER (40_clock_and_tier.md R126). -/
def execSetper (imm : Imm) (s : State) : Result :=
  .next (update (writeReg .fTarget (periodFreq s.cfg (zextImm imm)) (finishPending s)))

/-- `x <- 1 - x` on a 0/1 register (40_clock_and_tier.md R127, 45_sequencer_and_sync_square.md R290). -/
def toggleReg (r : Reg) (s : State) : State := writeReg r (1 - regValue s.params r) s

/-- TGLEXACT (40_clock_and_tier.md R127). -/
def execTglexact (s : State) : Result := .next (update (toggleReg .exact (finishPending s)))

end Sys2Proof.Machine
end

