-- ==== Sys2Proof/Machine/FastPath.lean ====
section
/-! DEFINITION. Meanings of TICK_FAST and TGLSYNC (45_sequencer_and_sync_square.md R281, R290). -/

namespace Sys2Proof.Machine

/-- The end of a half on the fast path: the other half if it has samples, the same half again otherwise
(45_sequencer_and_sync_square.md R281). -/
def endHalf (t : Tier) (s : State) : State :=
  let o := s.seq.half.other
  let s1 := if 0 < dutyCount s o t then boundary .flip (setHalf o s) else boundary .noflip s
  latchLength s1.seq.half t { s1 with seq := { s1.seq with seqIdx := 0 } }

/-- The cell TICK_FAST reads: `k = min(SEQ_IDX, S[t] - 1)` (45_sequencer_and_sync_square.md R281). -/
def fastIndex (t : Tier) (s : State) : Nat := min s.seq.seqIdx.toNat (samplesPerCycle t - 1)

/-- One sample period of tier `t` (45_sequencer_and_sync_square.md R281). -/
def fastSample (t : Tier) (s : State) : State :=
  let s1 := writeDac (cellSample (readCell s (.tb t s.seq.half) (fastIndex t s))) s
  if s.seq.seqLen.toNat ≤ s.seq.seqIdx.toNat + 1 then endHalf t s1
  else { s1 with seq := { s1.seq with seqIdx := s.seq.seqIdx + 1 } }

/-- TICK_FAST (45_sequencer_and_sync_square.md R281). EN_FAST = 1 with FASTMODE = -1, which no step leaves, is ignored
(log 6). -/
def execTickFast (s : State) : Result :=
  .next (if s.flags.enFast then
    match s.seq.fastMode with
    | .slow => s
    | .fast t => fastSample t s
  else s)

/-- TGLSYNC outside noise mode (45_sequencer_and_sync_square.md R290). -/
def toggleSync (s : State) : State :=
  let s1 := toggleReg .sync (squareOff s)
  if s1.flags.run then deriveSquare (syncLevel s1) else s1

/-- TGLSYNC (45_sequencer_and_sync_square.md R290). -/
def execTglsync (s : State) : Result :=
  .next (
    let s0 := finishPending s
    if shapeOf s0.params = .noise then setPriorSync (!s0.flags.priorSync) s0 else toggleSync s0)

end Sys2Proof.Machine
end

