-- ==== Sys2Proof/Machine/HostDuty.lean ====
section
/-! DEFINITION. Meanings of SETDUTY and SETPW (43_downsampler_and_tier_buffers.md R220, R221). -/

namespace Sys2Proof.Machine

/-- SETDUTY (43_downsampler_and_tier_buffers.md R220). -/
def execSetduty (imm : Imm) (s : State) : Result := .next (update (writeReg .duty (zextImm imm) (finishPending s)))

/-- The duty in ppm of a pulse width in microseconds at frequency `f` in microhertz (43_downsampler_and_tier_buffers.md
R221). -/
def pulseDuty (us f : Nat) : Nat := rdivNat (us * f) 1000000

/-- SETPW (43_downsampler_and_tier_buffers.md R221). -/
def execSetpw (imm : Imm) (s : State) : Result :=
  .next (update (writeReg .duty (pulseDuty (zextImm imm) s.params.fTarget.toNat) (finishPending s)))

end Sys2Proof.Machine
end

