-- ==== Sys2Proof/Machine/HostWave.lean ====
section
/-! DEFINITION. Meanings of SETSHAPE, SETPARAM, WPT, WPTS, COMMIT and WPCLR (41_wavetable_builder.md R150 to R155). -/

namespace Sys2Proof.Machine

/-- Entering noise mode saves and clears SYNC, leaving it restores SYNC (41_wavetable_builder.md R150). -/
def switchSync (toNoise : Bool) (s : State) : State :=
  let fromNoise := decide (shapeOf s.params = .noise)
  if toNoise && !fromNoise then writeReg .sync 0 (setPriorSync (s.params.sync == 1) s)
  else if !toNoise && fromNoise then writeReg .sync (if s.flags.priorSync then 1 else 0) s
  else s

/-- The state of SETSHAPE before the mode switch (41_wavetable_builder.md R150). -/
def selectShape (a : Nibble) (s : State) : State :=
  let new := min a.toNat 4
  writeReg .shape new (switchSync (new == 4) (finishPending s))

/-- SETSHAPE (41_wavetable_builder.md R150). -/
def execSetshape (a : Nibble) (s : State) : Result :=
  .next (if (selectShape a s).flags.run then modeSwitch (selectShape a s) else selectShape a s)

/-- The register SETPARAM may write (41_wavetable_builder.md R151, 30_encoding.md R104). -/
def paramReg (a b : Nibble) : Option Reg := if 5 < a.toNat then none else regAt a b

/-- What SETPARAM runs after the write: bank 5 re-derives the square wave, any other bank updates the wave
(41_wavetable_builder.md R151). -/
def afterParam (a : Nibble) (s : State) : State :=
  if a.toNat = 5 then (if s.flags.run then deriveSquare s else s) else update s

/-- SETPARAM (41_wavetable_builder.md R151). -/
def execSetparam (a b : Nibble) (imm : Imm) (s : State) : Result :=
  .next (match paramReg a b with
    | none => refuse s
    | some r => afterParam a (writeReg r (sextImm imm) (finishPending s)))

/-- WPT (41_wavetable_builder.md R152). -/
def execWpt (value : Sample) (s : State) : Result :=
  .next (
    let s0 := finishPending s
    let n := s0.waypoints.count.toNat
    if wpMax < n + 1 then truncateUpload s0 else setWpCount (n + 1) (writeWaypoint n false value s0))

/-- WPTS (41_wavetable_builder.md R153). -/
def execWpts (before after : Sample) (s : State) : Result :=
  .next (
    let s0 := finishPending s
    let n := s0.waypoints.count.toNat
    if wpMax < n + 2 then truncateUpload s0
    else setWpCount (n + 2) (writeWaypoint (n + 1) false after (writeWaypoint n true before s0)))

/-- COMMIT (41_wavetable_builder.md R154). -/
def execCommit (s : State) : Result := .next (update (finishPending s))

/-- WPCLR (41_wavetable_builder.md R155): the cells keep their bits. -/
def execWpclr (s : State) : Result :=
  .next (
    let s0 := setWpCount 0 (finishPending s)
    { s0 with flags := { s0.flags with uploadTrunc := false } })

end Sys2Proof.Machine
end

