-- ==== Sys2Proof/Machine/NoiseTick.lean ====
section
/-! DEFINITION. Meaning of TICK_NOISE (47_noise.md R336). -/

namespace Sys2Proof.Machine

/-- One noise sample (47_noise.md R336). -/
def noiseTick (rnd : BitVec 32) (s : State) : State :=
  let s1 := { s with noise := filterNoise (noiseSample rnd) s.noise }
  writeDac (BitVec.ofInt 12 (noiseLevel s.params.nAmp.toNat s1.noise)) s1

/-- TICK_NOISE (47_noise.md R336). -/
def execTickNoise (rnd : BitVec 32) (s : State) : Result := .next (if s.flags.enNoise then noiseTick rnd s else s)

end Sys2Proof.Machine
end

