-- ==== Sys2Proof/Machine/SlowPath.lean ====
section
/-! DEFINITION. Meanings of TICK_SLOW and TICK_DITHER (44_phase_accumulator.md R245, R252). -/

namespace Sys2Proof.Machine

/-- `WaveBit <- v`. -/
def setWaveBit (v : BitVec 32) (s : State) : State := { s with seq := { s.seq with waveBit := v } }

/-- The single active half at an extreme duty: half 1 at duty 0, half 0 otherwise (44_phase_accumulator.md R245, R248). -/
def activeHalf (s : State) : Half := if s.derived.dutyA = 0 then .second else .first

/-- The residual after a boundary that leaves half `old`: re-based in exact mode at a duty other than 50 %, kept otherwise
(44_phase_accumulator.md R245, R249). -/
def rebased (old : Half) (s : State) : BitVec 32 :=
  if s.params.exact = 1 ∧ s.flags.dutyNot50 = true then
    BitVec.ofNat 32 (min (fdiv (s.seq.waveBit.toNat * (s.seq.ratio.get old).toNat) 65536) (2 ^ 32 - 1))
  else s.seq.waveBit

/-- A boundary crossing on the slow path (44_phase_accumulator.md R245, R247, R248). -/
def slowBoundary (s : State) : State :=
  let old := s.seq.half
  let s1 := writeDac (cellSample (readCell s (.wf old) 4095)) s
  if s.flags.extreme = true ∧ old = activeHalf s then boundary .noflip s1
  else boundary .flip (setWaveBit (rebased old s1) (setHalf old.other s1))

/-- The index of the slow path: the top 12 bits, clamped (44_phase_accumulator.md R250). -/
def slowIndex (v : BitVec 32) : Nat := min (fdiv v.toNat (2 ^ 20)) 4095

/-- One sample of the slow path (44_phase_accumulator.md R245). -/
def slowSample (s : State) : State :=
  let inc := s.seq.increment.get s.seq.half
  let s1 := setWaveBit (s.seq.waveBit + inc) s
  if crossed s1.seq.waveBit inc then slowBoundary s1
  else writeDac (cellSample (readCell s1 (.wf s1.seq.half) (slowIndex s1.seq.waveBit))) s1

/-- TICK_SLOW (44_phase_accumulator.md R245). -/
def execTickSlow (s : State) : Result := .next (if s.flags.enSlow then slowSample s else s)

/-- DACC after one dither point, before the wrap (44_phase_accumulator.md R252). -/
def ditherSum (s : State) (h : Half) : Nat := s.seq.dacc.get h + s.seq.incFrac.get h

/-- The bump of one dither point (44_phase_accumulator.md R252). -/
def ditherBump (s : State) (h : Half) : Nat := if ditherPoints ≤ ditherSum s h then 1 else 0

/-- One dither point on both halves (44_phase_accumulator.md R252). -/
def ditherPoint (s : State) : State :=
  { s with seq := { s.seq with
    dacc := PerHalf.make fun h => ditherSum s h - ditherPoints * ditherBump s h
    increment := PerHalf.make fun h =>
      BitVec.ofNat 32 (min ((s.seq.incBase.get h).toNat + ditherBump s h) (2 ^ 32 - 1)) } }

/-- TICK_DITHER (44_phase_accumulator.md R252). -/
def execTickDither (s : State) : Result :=
  .next (if s.flags.enSlow = true ∧ s.flags.ditherOn = true then ditherPoint s else s)

end Sys2Proof.Machine
end

