-- ==== Sys2Proof/Machine/System.lean ====
section
/-! DEFINITION. Meanings of NOP, QSTAT, GETP, PUTP, APPLY and FGSTEP (48_system.md R360 to R366). -/

namespace Sys2Proof.Machine

/-- NOP (48_system.md R360). -/
def execNop (s : State) : Result := .next s

/-- QSTAT (48_system.md R361). -/
def execQstat (a : Nibble) (s : State) : Result :=
  .next (match qstatValue s a with
    | none => refuse s
    | some v => emit (.resp (responseWord 0x0D a 0 v)) s)

/-- GETP (48_system.md R363). -/
def execGetp (a b : Nibble) (s : State) : Result := .next (emit (.resp (responseWord 0x0E a b (getpValue s a b))) s)

/-- PUTP (48_system.md R364). -/
def execPutp (a b : Nibble) (imm : Imm) (s : State) : Result :=
  .next (match regAt a b with
    | none => refuse s
    | some r => writeReg r (sextImm imm) (finishPending s))

/-- Noise mode holds SYNC = 0 (48_system.md R365). -/
def holdSync (s : State) : State :=
  if shapeOf s.params = .noise ∧ s.params.sync = 1 then writeReg .sync 0 (setPriorSync true s) else s

/-- APPLY (48_system.md R365). -/
def execApply (s : State) : Result :=
  .next (
    let s0 := holdSync (finishPending s)
    modeSwitch { s0 with flags := { s0.flags with run := true } })

/-- FGSTEP (48_system.md R366). -/
def execFgstep (s : State) : Result := .next (finishPending s)

end Sys2Proof.Machine
end

