-- ==== Sys2Proof/Machine/UsqTick.lean ====
section
/-! DEFINITION. Meaning of TICK_USQ (46_unsynced_square.md R316). -/

namespace Sys2Proof.Machine

/-- `USQ_ACC <- v`. -/
def setUsqAcc (v : BitVec 32) (s : State) : State := { s with usq := { s.usq with acc := v } }

/-- A boundary crossing of the unsynchronised square wave (46_unsynced_square.md R316). -/
def usqBoundary (s : State) : State :=
  if s.usq.ext then emit (.sqPulse 0) s
  else driveSq (level s.usq.half.other) 0 { s with usq := { s.usq with half := s.usq.half.other } }

/-- One tick of the unsynchronised square wave (46_unsynced_square.md R316). -/
def usqSample (s : State) : State :=
  let inc := s.usq.inc.get s.usq.half
  let s1 := setUsqAcc (s.usq.acc + inc) s
  if crossed s1.usq.acc inc then usqBoundary s1 else s1

/-- TICK_USQ (46_unsynced_square.md R316). -/
def execTickUsq (s : State) : Result := .next (if s.flags.enUsq then usqSample s else s)

end Sys2Proof.Machine
end

