-- ==== Sys2Proof/Machine/Dispatch.lean ====
section
/-! DEFINITION. One arm per instruction (30_encoding.md R95), each a direct call of its meaning. -/

namespace Sys2Proof.Machine

def exec (i : Instr) (s : State) : Host.Outcome State Fault Refusal :=
  match i with
  | .nop => Sys2Proof.Machine.execNop s
  | .setfreq imm => Sys2Proof.Machine.execSetfreq imm s
  | .setper imm => Sys2Proof.Machine.execSetper imm s
  | .setduty imm => Sys2Proof.Machine.execSetduty imm s
  | .setpw imm => Sys2Proof.Machine.execSetpw imm s
  | .setshape a => Sys2Proof.Machine.execSetshape a s
  | .setparam a b imm => Sys2Proof.Machine.execSetparam a b imm s
  | .tglexact => Sys2Proof.Machine.execTglexact s
  | .tglsync => Sys2Proof.Machine.execTglsync s
  | .wpt value => Sys2Proof.Machine.execWpt value s
  | .wpts before after => Sys2Proof.Machine.execWpts before after s
  | .commit => Sys2Proof.Machine.execCommit s
  | .wpclr => Sys2Proof.Machine.execWpclr s
  | .qstat a => Sys2Proof.Machine.execQstat a s
  | .getp a b => Sys2Proof.Machine.execGetp a b s
  | .putp a b imm => Sys2Proof.Machine.execPutp a b imm s
  | .applyAll => Sys2Proof.Machine.execApply s
  | .fgstep => Sys2Proof.Machine.execFgstep s
  | .tickSlow => Sys2Proof.Machine.execTickSlow s
  | .tickFast => Sys2Proof.Machine.execTickFast s
  | .tickNoise rnd => Sys2Proof.Machine.execTickNoise rnd s
  | .tickUsq => Sys2Proof.Machine.execTickUsq s
  | .tickDither => Sys2Proof.Machine.execTickDither s

end Sys2Proof.Machine
end

