-- ==== Sys2Proof/Decode.lean ====
section
/-! DEFINITION. Decoding a stimulus word by its fields (30_encoding.md R91 to R95), total and rejecting by name (R100,
R102); the 8-byte serialisation of a word (20_memory.md R68); the encoder (R110); the match and mask rows (R96). -/

namespace Sys2Proof

/-- Why a word selects no row (30_encoding.md R102). -/
inductive DecodeError where
  /-- OP is one of the reserved class 0x80..0xFF (R94). -/
  | reservedClass
  /-- OP is in the host or tick class and not assigned (R95). -/
  | unassignedOp
  /-- OP is assigned and a must-be-zero field is not zero (R92); the row's mnemonic. -/
  | mustBeZero (mnemonic : String)
  /-- Fewer than 8 bytes are left where a serialised word should start. DESIGN CHOICE (log 21): the spec gives the order and
  the number of a word's bytes and is silent on a shorter rest. -/
  | truncated
deriving DecidableEq, Repr

/-- Field OP, bits 63:56 (30_encoding.md R91). -/
def Word.op (w : Word) : BitVec 8 := w.extractLsb' 56 8

/-- Field A, bits 55:52 (R91). -/
def Word.a (w : Word) : Nibble := w.extractLsb' 52 4

/-- Field B, bits 51:48 (R91). -/
def Word.b (w : Word) : Nibble := w.extractLsb' 48 4

/-- Field IMM, bits 47:0 (R91). -/
def Word.imm (w : Word) : Imm := w.extractLsb' 0 48

/-- Form W0: A, B and IMM must be zero (30_encoding.md R92). -/
def formW0 (name : String) (w : Word) (i : Instr) : Except DecodeError Instr :=
  if Word.a w = 0 ∧ Word.b w = 0 ∧ Word.imm w = 0 then .ok i else .error (.mustBeZero name)

/-- Form WA: B and IMM must be zero (R92). -/
def formWA (name : String) (w : Word) (f : Nibble → Instr) : Except DecodeError Instr :=
  if Word.b w = 0 ∧ Word.imm w = 0 then .ok (f (Word.a w)) else .error (.mustBeZero name)

/-- Form WAB: IMM must be zero (R92). -/
def formWAB (name : String) (w : Word) (f : Nibble → Nibble → Instr) : Except DecodeError Instr :=
  if Word.imm w = 0 then .ok (f (Word.a w) (Word.b w)) else .error (.mustBeZero name)

/-- Form WI with the whole of IMM: A and B must be zero (R92). -/
def formWI (name : String) (w : Word) (f : Imm → Instr) : Except DecodeError Instr :=
  if Word.a w = 0 ∧ Word.b w = 0 then .ok (f (Word.imm w)) else .error (.mustBeZero name)

/-- Form WI of WPT: the value is IMM[11:0], IMM[47:12] must be zero (R93, R96). -/
def formWpt (w : Word) : Except DecodeError Instr :=
  if Word.a w = 0 ∧ Word.b w = 0 ∧ (Word.imm w).extractLsb' 12 36 = 0 then
    .ok (.wpt ((Word.imm w).extractLsb' 0 12))
  else .error (.mustBeZero "WPT")

/-- Form WI of WPTS: before is IMM[11:0], after is IMM[27:16], IMM[15:12] and IMM[47:28] must be zero (R93, R96). -/
def formWpts (w : Word) : Except DecodeError Instr :=
  if Word.a w = 0 ∧ Word.b w = 0 ∧ (Word.imm w).extractLsb' 12 4 = 0 ∧ (Word.imm w).extractLsb' 28 20 = 0 then
    .ok (.wpts ((Word.imm w).extractLsb' 0 12) ((Word.imm w).extractLsb' 16 12))
  else .error (.mustBeZero "WPTS")

/-- Form WI of TICK_NOISE: the random word is IMM[31:0], IMM[47:32] must be zero (R93, R96). -/
def formNoise (w : Word) : Except DecodeError Instr :=
  if Word.a w = 0 ∧ Word.b w = 0 ∧ (Word.imm w).extractLsb' 32 16 = 0 then
    .ok (.tickNoise ((Word.imm w).extractLsb' 0 32))
  else .error (.mustBeZero "TICK_NOISE")

/-- The instruction a 64-bit stimulus word stands for, or why there is none (30_encoding.md R95, R100, R102). -/
def decode (w : Word) : Except DecodeError Instr :=
  match (Word.op w).toNat with
  | 0x00 => formW0 "NOP" w .nop
  | 0x01 => formWI "SETFREQ" w .setfreq
  | 0x02 => formWI "SETPER" w .setper
  | 0x03 => formWI "SETDUTY" w .setduty
  | 0x04 => formWI "SETPW" w .setpw
  | 0x05 => formWA "SETSHAPE" w .setshape
  | 0x06 => .ok (.setparam (Word.a w) (Word.b w) (Word.imm w))
  | 0x07 => formW0 "TGLEXACT" w .tglexact
  | 0x08 => formW0 "TGLSYNC" w .tglsync
  | 0x09 => formWpt w
  | 0x0A => formWpts w
  | 0x0B => formW0 "COMMIT" w .commit
  | 0x0C => formW0 "WPCLR" w .wpclr
  | 0x0D => formWA "QSTAT" w .qstat
  | 0x0E => formWAB "GETP" w .getp
  | 0x0F => .ok (.putp (Word.a w) (Word.b w) (Word.imm w))
  | 0x10 => formW0 "APPLY" w .applyAll
  | 0x11 => formW0 "FGSTEP" w .fgstep
  | 0x40 => formW0 "TICK_SLOW" w .tickSlow
  | 0x41 => formW0 "TICK_FAST" w .tickFast
  | 0x42 => formNoise w
  | 0x43 => formW0 "TICK_USQ" w .tickUsq
  | 0x44 => formW0 "TICK_DITHER" w .tickDither
  | op => if 0x80 ≤ op then .error .reservedClass else .error .unassignedOp

/-- `{OP, A, B, IMM}` (30_encoding.md R11, R91, R110). -/
def Word.make (op : BitVec 8) (a b : Nibble) (imm : Imm) : Word := op ++ a ++ b ++ imm

/-- The word of an instruction (30_encoding.md R110). -/
def encode (i : Instr) : Word :=
  match i with
  | .nop => Word.make 0x00 0 0 0
  | .setfreq imm => Word.make 0x01 0 0 imm
  | .setper imm => Word.make 0x02 0 0 imm
  | .setduty imm => Word.make 0x03 0 0 imm
  | .setpw imm => Word.make 0x04 0 0 imm
  | .setshape a => Word.make 0x05 a 0 0
  | .setparam a b imm => Word.make 0x06 a b imm
  | .tglexact => Word.make 0x07 0 0 0
  | .tglsync => Word.make 0x08 0 0 0
  | .wpt v => Word.make 0x09 0 0 ((0#36) ++ v)
  | .wpts before after => Word.make 0x0A 0 0 ((0#20) ++ after ++ (0#4) ++ before)
  | .commit => Word.make 0x0B 0 0 0
  | .wpclr => Word.make 0x0C 0 0 0
  | .qstat a => Word.make 0x0D a 0 0
  | .getp a b => Word.make 0x0E a b 0
  | .putp a b imm => Word.make 0x0F a b imm
  | .applyAll => Word.make 0x10 0 0 0
  | .fgstep => Word.make 0x11 0 0 0
  | .tickSlow => Word.make 0x40 0 0 0
  | .tickFast => Word.make 0x41 0 0 0
  | .tickNoise rnd => Word.make 0x42 0 0 ((0#16) ++ rnd)
  | .tickUsq => Word.make 0x43 0 0 0
  | .tickDither => Word.make 0x44 0 0 0

/-- A word as 8 bytes, the byte with bits 63:56 first (20_memory.md R68). -/
def Word.toBytes (w : Word) : List (BitVec 8) :=
  [w.extractLsb' 56 8, w.extractLsb' 48 8, w.extractLsb' 40 8, w.extractLsb' 32 8,
   w.extractLsb' 24 8, w.extractLsb' 16 8, w.extractLsb' 8 8, w.extractLsb' 0 8]

/-- The first word of a byte sequence and the bytes after it, big-endian (20_memory.md R68). That fewer than 8 bytes hold
no word is a DESIGN CHOICE (log 21). -/
def Word.ofBytes (bs : List (BitVec 8)) : Option (Word × List (BitVec 8)) :=
  match bs with
  | b7 :: b6 :: b5 :: b4 :: b3 :: b2 :: b1 :: b0 :: rest =>
    some (b7 ++ b6 ++ b5 ++ b4 ++ b3 ++ b2 ++ b1 ++ b0, rest)
  | _ => none

/-- The instruction at the head of a serialised stream and the bytes after it (20_memory.md R68, 30_encoding.md R106).
DESIGN CHOICE (log 21): where fewer than 8 bytes are left the answer is the error `truncated`; the spec is silent there. -/
def decodeBytes (bs : List (BitVec 8)) : Except DecodeError (Instr × List (BitVec 8)) :=
  match Word.ofBytes bs with
  | none => .error .truncated
  | some (w, rest) =>
    match decode w with
    | .ok i => .ok (i, rest)
    | .error e => .error e

/-- The stimulus word whose low `nbits` bits are those of `w` and whose other bits are 0. -/
def tableWord (nbits w : Nat) : Word := BitVec.ofNat 64 (w % 2 ^ nbits)

/-- The instruction the decoder reads from a word numbered as spec/opcode_table.json numbers its bits. -/
def decodeTableWord (nbits w : Nat) : Option Instr :=
  match decode (tableWord nbits w) with
  | .ok i => some i
  | .error _ => none

/-- One row of 30_encoding.md R96: a word `w` selects it iff `w AND mask = match`. -/
structure OpcodeRow where
  mnemonic : String
  value    : Word
  mask     : Word
deriving DecidableEq, Repr

/-- The rows of the host class (30_encoding.md R96). -/
def hostRows : List OpcodeRow := [
  ⟨"NOP",      0x0000000000000000, 0xFFFFFFFFFFFFFFFF⟩,
  ⟨"SETFREQ",  0x0100000000000000, 0xFFFF000000000000⟩,
  ⟨"SETPER",   0x0200000000000000, 0xFFFF000000000000⟩,
  ⟨"SETDUTY",  0x0300000000000000, 0xFFFF000000000000⟩,
  ⟨"SETPW",    0x0400000000000000, 0xFFFF000000000000⟩,
  ⟨"SETSHAPE", 0x0500000000000000, 0xFF0FFFFFFFFFFFFF⟩,
  ⟨"SETPARAM", 0x0600000000000000, 0xFF00000000000000⟩,
  ⟨"TGLEXACT", 0x0700000000000000, 0xFFFFFFFFFFFFFFFF⟩,
  ⟨"TGLSYNC",  0x0800000000000000, 0xFFFFFFFFFFFFFFFF⟩,
  ⟨"WPT",      0x0900000000000000, 0xFFFFFFFFFFFFF000⟩,
  ⟨"WPTS",     0x0A00000000000000, 0xFFFFFFFFF000F000⟩,
  ⟨"COMMIT",   0x0B00000000000000, 0xFFFFFFFFFFFFFFFF⟩,
  ⟨"WPCLR",    0x0C00000000000000, 0xFFFFFFFFFFFFFFFF⟩,
  ⟨"QSTAT",    0x0D00000000000000, 0xFF0FFFFFFFFFFFFF⟩,
  ⟨"GETP",     0x0E00000000000000, 0xFF00FFFFFFFFFFFF⟩,
  ⟨"PUTP",     0x0F00000000000000, 0xFF00000000000000⟩,
  ⟨"APPLY",    0x1000000000000000, 0xFFFFFFFFFFFFFFFF⟩,
  ⟨"FGSTEP",   0x1100000000000000, 0xFFFFFFFFFFFFFFFF⟩]

/-- The rows of the tick class (30_encoding.md R96). -/
def tickRows : List OpcodeRow := [
  ⟨"TICK_SLOW",   0x4000000000000000, 0xFFFFFFFFFFFFFFFF⟩,
  ⟨"TICK_FAST",   0x4100000000000000, 0xFFFFFFFFFFFFFFFF⟩,
  ⟨"TICK_NOISE",  0x4200000000000000, 0xFFFFFFFF00000000⟩,
  ⟨"TICK_USQ",    0x4300000000000000, 0xFFFFFFFFFFFFFFFF⟩,
  ⟨"TICK_DITHER", 0x4400000000000000, 0xFFFFFFFFFFFFFFFF⟩]

/-- All 23 rows (30_encoding.md R96). -/
def opcodeRows : List OpcodeRow := hostRows ++ tickRows

/-- `w` selects row `r` (30_encoding.md R92). -/
def OpcodeRow.selects (r : OpcodeRow) (w : Word) : Bool := w &&& r.mask == r.value

end Sys2Proof
end

