-- ==== Sys2Proof/Machine/Fetch.lean ====
section
/-! DEFINITION. Taking the next stimulus word (30_encoding.md R90, 60_exceptions.md R406). -/

namespace Sys2Proof.Machine

/-- The state with the stimulus stream replaced. -/
def setInput (ws : List Word) (s : State) : State := { s with input := ws }

/-- The instruction of a word, or `none` for a refused word (30_encoding.md R100). -/
def instrOf (w : Word) : Option Instr :=
  match decode w with
  | .ok i => some i
  | .error _ => none

end Sys2Proof.Machine
end

