-- ==== Sys2Proof/Machine/Step.lean ====
section
/-! DEFINITION. One step: the next stimulus word is taken from the stream and executed to completion (30_encoding.md R90,
60_exceptions.md R406); a refused word sets BADCMD (30_encoding.md R101); with no word left nothing happens (log 1). -/

namespace Sys2Proof.Machine

/-- One step of PND-CORE. -/
def step (s : State) : Host.Outcome State Fault Refusal :=
  match s.input with
  | [] => .next s
  | w :: rest =>
    match instrOf w with
    | some i => exec i (setInput rest s)
    | none => .next (refuse (setInput rest s))

/-- `s` with the stimulus word of the table's numbering put at the head of its stream, where `step` takes it next. -/
def State.withFetchWord (s : State) (nbits w : Nat) : State := setInput (tableWord nbits w :: s.input) s

end Sys2Proof.Machine
end

