-- ==== Sys2Proof/WellFormed.lean ====
section
/-! DEFINITION. Checks on terms. `Instr.wellFormed`: the operand values an operation accepts, so that it is not refused by
value (30_encoding.md R103, R104); field widths and must-be-zero fields need no check, since `Instr` cannot hold a wrong
one. `Cfg.valid`: the constraints on the OPEN parameters (00_scope.md R9, 47_noise.md R333). -/

namespace Sys2Proof

/-- How many registers bank `a` has; their indices run from 0 (10_state.md R22 to R28). -/
def bankSize (a : Nat) : Nat :=
  match a with
  | 0 => 7
  | 1 => 4
  | 2 => 5
  | 3 => 4
  | 4 => 2
  | 5 => 2
  | 6 => 5
  | _ => 0

/-- The operation accepts these operand values: QSTAT needs A <= 2 (30_encoding.md R103); SETPARAM needs a register of
banks 0..5 and PUTP one of banks 0..6 (R104). Every other operation accepts every operand. -/
def Instr.wellFormed (i : Instr) : Bool :=
  match i with
  | .nop => true
  | .setfreq _ => true
  | .setper _ => true
  | .setduty _ => true
  | .setpw _ => true
  | .setshape _ => true
  | .setparam a b _ => decide (a.toNat ≤ 5) && decide (b.toNat < bankSize a.toNat)
  | .tglexact => true
  | .tglsync => true
  | .wpt _ => true
  | .wpts _ _ => true
  | .commit => true
  | .wpclr => true
  | .qstat a => decide (a.toNat ≤ 2)
  | .getp _ _ => true
  | .putp a b _ => decide (a.toNat ≤ 6) && decide (b.toNat < bankSize a.toNat)
  | .applyAll => true
  | .fgstep => true
  | .tickSlow => true
  | .tickFast => true
  | .tickNoise _ => true
  | .tickUsq => true
  | .tickDither => true

/-- Breakpoint positions strictly rise, and the last is 1000 (47_noise.md R333). -/
def ColorMap.rises (m : ColorMap) : Bool :=
  match m with
  | [] => false
  | [p] => p.1 == 1000
  | p :: q :: rest => decide (p.1 < q.1) && ColorMap.rises (q :: rest)

/-- A colour map has at least two breakpoints, starts at colour 0, rises to 1000, and its values lie in 0..hi (R333). -/
def ColorMap.valid (hi : Int) (m : ColorMap) : Bool :=
  decide (2 ≤ m.length) && (m.head?.map (fun p => p.1) == some 0) && ColorMap.rises m &&
    m.all (fun p => decide (0 ≤ p.2) && decide (p.2 ≤ hi))

/-- The constraints of 00_scope.md R9 on the timer, the tiers and the frequency limits. -/
def Cfg.validClock (c : Cfg) : Bool :=
  decide (1 ≤ c.minMaxDuty) && decide (c.minMaxDuty ≤ 8) &&
  decide (0 < c.fTimer) && decide (1 ≤ c.tcSlow) && decide (c.fTimer % c.tcSlow = 0) &&
  decide (1 ≤ c.tcMin) && decide (c.tcMin ≤ c.tcMax) && decide (c.tcMax < 2 ^ 32) &&
  decide (1000000000 < c.tierT0) && decide (c.tierT0 < c.tierT1) && decide (c.tierT1 < c.tierT2) &&
  decide (1 ≤ c.fMin) && decide (c.fMin ≤ c.fMax) && decide (c.fMax < 2 ^ 48) &&
  decide (1 ≤ c.sqFMin) && decide (c.sqFMin ≤ c.sqFMax) && decide (c.sqFMax < 2 ^ 48)

/-- The constraints of 00_scope.md R9 on calibration, delay, the unsynced square wave and the peak hold. DESIGN CHOICE
(log 20): R9 says of USQ_T[0..3] only "descending"; equal thresholds are not accepted here. -/
def Cfg.validTuning (c : Cfg) : Bool :=
  decide (0 < c.calNum) && decide (0 < c.calDen) && decide (0 < c.lrfDen) && decide (1 ≤ c.ldf) &&
  decide (c.usqT1 < c.usqT0) && decide (c.usqT2 < c.usqT1) && decide (c.usqT3 < c.usqT2) &&
  decide (0 < c.fPwm) && decide (2 ≤ c.pwmPerMax) && decide (1 ≤ c.arbSharp)

/-- The constraints of 47_noise.md R333 on the five colour maps. -/
def Cfg.validMaps (c : Cfg) : Bool :=
  ColorMap.valid 10000 c.mapCf && ColorMap.valid 100 c.mapLfc && ColorMap.valid 32767 c.mapMw &&
  ColorMap.valid 32767 c.mapLbw && ColorMap.valid 32767 c.mapHbw

/-- Every constraint of 00_scope.md R9 and 47_noise.md R333. HRD is any integer and LRF_NUM any natural number. -/
def Cfg.valid (c : Cfg) : Bool := c.validClock && c.validTuning && c.validMaps

end Sys2Proof
end

