-- ==== Sys2Proof/Safety.lean ====
section
/-! DEFINITION. What counts as a sound state and as an unchanged part of one, in the words the statements use. -/

namespace Sys2Proof.Machine

/-- The five tick events (10_state.md R20, 60_exceptions.md R403). -/
def isTick (i : Instr) : Bool :=
  match i with
  | .tickSlow | .tickFast | .tickNoise _ | .tickUsq | .tickDither => true
  | .nop | .setfreq _ | .setper _ | .setduty _ | .setpw _ | .setshape _ | .setparam _ _ _ | .tglexact | .tglsync
  | .wpt _ | .wpts _ _ | .commit | .wpclr | .qstat _ | .getp _ _ | .putp _ _ _ | .applyAll | .fgstep => false

/-- `t` has the trace of `s` and after it only SQ events without delay: all a wave command may output (40_clock_and_tier.md
R130, 46_unsynced_square.md R312). -/
def AddsOnlySquareLevels (s t : State) : Prop :=
  ∃ es : List Event, t.trace = s.trace ++ es ∧ ∀ e ∈ es, ∃ b : Bool, e = .sq b 0

/-- What a wave command leaves as it was, whatever `Update` or `ModeSwitch` does: waypoints, the noise filters, DAC_OUT, RUN,
the advisory flags, PRIOR_SYNC, the stream and the configuration; and it outputs no sample and no response. -/
structure HostFrame (s t : State) : Prop where
  waypoints   : t.waypoints = s.waypoints
  nfFast      : t.noise.nfFast = s.noise.nfFast
  nfSlow      : t.noise.nfSlow = s.noise.nfSlow
  nfAvg       : t.noise.nfAvg = s.noise.nfAvg
  nfCnt       : t.noise.nfCnt = s.noise.nfCnt
  dacOut      : t.out.dacOut = s.out.dacOut
  run         : t.flags.run = s.flags.run
  badCmd      : t.flags.badCmd = s.flags.badCmd
  uploadTrunc : t.flags.uploadTrunc = s.flags.uploadTrunc
  priorSync   : t.flags.priorSync = s.flags.priorSync
  input       : t.input = s.input
  cfg         : t.cfg = s.cfg
  trace       : AddsOnlySquareLevels s t

/-- What a tick leaves as it was (the "no" rows of 60_exceptions.md R411). -/
structure TickFrame (s t : State) : Prop where
  params    : t.params = s.params
  waypoints : t.waypoints = s.waypoints
  tables    : t.tables = s.tables
  shadow    : t.shadow = s.shadow
  derived   : t.derived = s.derived
  flags     : t.flags = s.flags
  fastMode  : t.seq.fastMode = s.seq.fastMode
  incBase   : t.seq.incBase = s.seq.incBase
  incFrac   : t.seq.incFrac = s.seq.incFrac
  ratio     : t.seq.ratio = s.seq.ratio
  cf        : t.noise.cf = s.noise.cf
  lfc       : t.noise.lfc = s.noise.lfc
  mw        : t.noise.mw = s.noise.mw
  lbw       : t.noise.lbw = s.noise.lbw
  hbw       : t.noise.hbw = s.noise.hbw
  usqInc    : t.usq.inc = s.usq.inc
  usqExt    : t.usq.ext = s.usq.ext
  pwmRange  : t.usq.pwmRange = s.usq.pwmRange
  pwmPer    : t.usq.pwmPer = s.usq.pwmPer
  pwmDty    : t.usq.pwmDty = s.usq.pwmDty
  input     : t.input = s.input
  cfg       : t.cfg = s.cfg

/-- One row of the register tables: bank A, index B, the register, its place in `Params`, and its range. -/
structure RegisterRow where
  a     : Nibble
  b     : Nibble
  reg   : Reg
  field : Params → Imm
  lo    : Int
  hi    : Int

/-- The tables of the 29 parameter registers, written out from 10_state.md R22 to R28 for the statements; no meaning reads
it. A register is signed iff its range goes below 0 (R21). -/
def registerTable (c : Cfg) : List RegisterRow :=
  -- Bank 0, sine (R22)
  [⟨0, 0, .sAmp, Params.sAmp, 0, 100⟩,
   ⟨0, 1, .sBias, Params.sBias, -4095, 4095⟩,
   ⟨0, 2, .sPhase, Params.sPhase, 0, 8191⟩,
   ⟨0, 3, .sMult, Params.sMult, 0, 64⟩,
   ⟨0, 4, .sMixMode, Params.sMixMode, 0, 1⟩,
   ⟨0, 5, .sW1, Params.sW1, 0, 100⟩,
   ⟨0, 6, .sW2, Params.sW2, 0, 100⟩] ++
  -- Bank 1, triangle (R23)
  [⟨1, 0, .tAmp, Params.tAmp, 0, 100⟩,
   ⟨1, 1, .tBias, Params.tBias, -4095, 4095⟩,
   ⟨1, 2, .tPhase, Params.tPhase, 0, 8191⟩,
   ⟨1, 3, .tSteps, Params.tSteps, 0, 4096⟩] ++
  -- Bank 2, arbitrary (R24)
  [⟨2, 0, .aVScale, Params.aVScale, 0, 1000⟩,
   ⟨2, 1, .aVShift, Params.aVShift, -4095, 4095⟩,
   ⟨2, 2, .aHZoom, Params.aHZoom, 1, 1000⟩,
   ⟨2, 3, .aHShift, Params.aHShift, -4095, 4095⟩,
   ⟨2, 4, .aMirror, Params.aMirror, 0, 1⟩] ++
  -- Bank 3, composite (R25)
  [⟨3, 0, .cWs, Params.cWs, 0, 100⟩,
   ⟨3, 1, .cWt, Params.cWt, 0, 100⟩,
   ⟨3, 2, .cWa, Params.cWa, 0, 100⟩,
   ⟨3, 3, .cBias, Params.cBias, -4095, 4095⟩] ++
  -- Bank 4, noise (R26)
  [⟨4, 0, .nAmp, Params.nAmp, 0, 2000⟩,
   ⟨4, 1, .nColor, Params.nColor, 0, 1000⟩] ++
  -- Bank 5, unsynced square wave (R27)
  [⟨5, 0, .qFreq, Params.qFreq, c.sqFMin, c.sqFMax⟩,
   ⟨5, 1, .qDuty, Params.qDuty, 0, 1000000⟩] ++
  -- Bank 6, global (R28)
  [⟨6, 0, .fTarget, Params.fTarget, c.fMin, c.fMax⟩,
   ⟨6, 1, .duty, Params.duty, 0, 1000000⟩,
   ⟨6, 2, .shape, Params.shape, 0, 4⟩,
   ⟨6, 3, .exact, Params.exact, 0, 1⟩,
   ⟨6, 4, .sync, Params.sync, 0, 1⟩]

/-- Every parameter register holds a value in its range (10_state.md R29). -/
def RegistersInRange (s : State) : Prop :=
  ∀ r : Reg, regLo s.cfg r ≤ regValue s.params r ∧ regValue s.params r ≤ regHi s.cfg r

/-- Every table memory is in canonical form, and so is what SH holds for the half still to be committed (20_memory.md R60,
10_state.md R47). -/
structure MemoryCanonical (s : State) : Prop where
  tables   : ∀ sp : Space, Memory.wf (spaceSize sp) (tableOf s sp) = true
  shadowWf : s.flags.pend = true → Memory.wf tableAlloc s.shadow.wf = true
  shadowRt : s.flags.pend = true → Memory.wf redLen s.shadow.rt = true
  shadowTb : s.flags.pend = true → ∀ t : Tier, s.seq.fastMode = .fast t →
    Memory.wf (samplesPerCycle t) s.shadow.tb = true

/-- Every cell listed is a sample value, 0..4095 (20_memory.md R64). -/
def CellsAreSamples (m : Memory) : Prop := ∀ p ∈ m, p.2.toNat ≤ 4095

/-- Every cell of WF, RT, TB and SH that has been written holds a value in 0..4095 (20_memory.md R64). -/
structure TablesHoldSamples (s : State) : Prop where
  wf : ∀ h : Half, CellsAreSamples (s.tables.wf.get h)
  rt : ∀ h : Half, CellsAreSamples (s.tables.rt.get h)
  tb : ∀ (t : Tier) (h : Half), CellsAreSamples ((s.tables.tb.get t).get h)
  shadowWf : CellsAreSamples s.shadow.wf
  shadowRt : CellsAreSamples s.shadow.rt
  shadowTb : CellsAreSamples s.shadow.tb

/-- Cells 0..n-1 have been written. -/
def Memory.filled (n : Nat) (m : Memory) : Prop := ∀ i, i < n → (Memory.find m i).isSome = true

/-- A tick source is enabled only while every cell it can read has been written (70_reset_and_hazards.md R442). -/
structure ReadableTablesWritten (s : State) : Prop where
  slow       : s.flags.enSlow = true → ∀ h : Half, Memory.filled tableAlloc (s.tables.wf.get h)
  fast       : s.flags.enFast = true → ∀ t : Tier, s.seq.fastMode = .fast t →
    ∀ h : Half, Memory.filled (samplesPerCycle t) ((s.tables.tb.get t).get h)
  shadowSlow : s.flags.pend = true → Memory.filled tableAlloc s.shadow.wf
  shadowFast : s.flags.pend = true → ∀ t : Tier, s.seq.fastMode = .fast t →
    Memory.filled (samplesPerCycle t) s.shadow.tb

/-- At most one path drives the DAC and at most one the independent square wave; the path enabled is the one FASTMODE names;
nothing is enabled before the first APPLY (10_state.md R37, 20_memory.md R78, 70_reset_and_hazards.md R441). -/
structure EnablesExclusive (s : State) : Prop where
  slowFast  : ¬ (s.flags.enSlow = true ∧ s.flags.enFast = true)
  slowNoise : ¬ (s.flags.enSlow = true ∧ s.flags.enNoise = true)
  fastNoise : ¬ (s.flags.enFast = true ∧ s.flags.enNoise = true)
  usqPwm    : ¬ (s.flags.enUsq = true ∧ s.flags.enPwm = true)
  slowMode  : s.flags.enSlow = true → s.seq.fastMode = .slow
  fastTier  : s.flags.enFast = true → s.seq.fastMode ≠ .slow
  needRun   : s.flags.run = false → s.flags.enSlow = false ∧ s.flags.enFast = false ∧ s.flags.enNoise = false ∧
    s.flags.enUsq = false ∧ s.flags.enPwm = false

/-- The DutyTable invariant: with no commit pending the two counts of a tier make a full cycle, or neither has been written;
with one pending, the new count of the other half and the one in SH do (20_memory.md R65,
43_downsampler_and_tier_buffers.md R214, R228). -/
structure DutyTableSums (s : State) : Prop where
  settled : s.flags.pend = false → ∀ t : Tier,
    dutyCount s .first t + dutyCount s .second t = samplesPerCycle t ∨
      (dutyCount s .first t = 0 ∧ dutyCount s .second t = 0)
  pending : s.flags.pend = true → ∀ t : Tier,
    dutyCount s s.flags.pendHalf.other t + (s.shadow.duty.get t).toNat = samplesPerCycle t

/-- The fast path's position lies in its half and its half in the tier's cycle; the dither numbers are thousandths
(10_state.md R33, R34, 43_downsampler_and_tier_buffers.md R228). -/
structure SequencerInRange (s : State) : Prop where
  counts   : ∀ (h : Half) (t : Tier), dutyCount s h t ≤ samplesPerCycle t
  shadow   : ∀ t : Tier, (s.shadow.duty.get t).toNat ≤ samplesPerCycle t
  position : s.flags.enFast = true → s.seq.seqIdx.toNat < s.seq.seqLen.toNat
  length   : s.flags.enFast = true → ∀ t : Tier, s.seq.fastMode = .fast t → s.seq.seqLen.toNat ≤ samplesPerCycle t
  frac     : ∀ h : Half, s.seq.incFrac.get h < 1000
  shFrac   : s.shadow.incFrac < 1000
  dacc     : ∀ h : Half, s.seq.dacc.get h < 1000

/-- A noise accumulator lies in -2^31 .. 2^31 - 1 (47_noise.md R332). -/
def inFilterRange (v : Int) : Prop := -2 ^ 31 ≤ v ∧ v ≤ 2 ^ 31 - 1

/-- The noise filters stay in 32 bits and the coefficients in their ranges (47_noise.md R332, R333). -/
structure NoiseBounded (s : State) : Prop where
  fast : inFilterRange s.noise.nfFast
  slow : inFilterRange s.noise.nfSlow
  avg  : inFilterRange s.noise.nfAvg
  cf   : s.noise.cf.toNat ≤ 10000
  lfc  : s.noise.lfc.toNat ≤ 100

/-- WP_COUNT is at most 4096, every valid entry has been written, and bits 15:13 of every entry are 0 (20_memory.md R66,
10_state.md R44). -/
structure WaypointsValid (s : State) : Prop where
  count : s.waypoints.count.toNat ≤ 4096
  valid : Memory.filled s.waypoints.count.toNat s.waypoints.cells
  bits  : ∀ p ∈ s.waypoints.cells, p.2.toNat < 2 ^ 13

end Sys2Proof.Machine
end

