-- ==== Sys2Proof/Certificates/Slice0/Obligations.lean ====
section
/-! DEFINITION. The statements for the provers, in the order of OBLIGATIONS.json. Each docstring names the rule of spec/ it
formalises. -/

open Sys2Proof Sys2Proof.Machine

/-! ## Encoding -/

/-- Decoding the word of any instruction gives the instruction back (30_encoding.md R92, R93, R95; the word itself is an
inference the spec marks as its own, R110). -/
def Obligations.DecodeOfEncodeIsIdentity : Prop :=
  ∀ i : Instr, decode (encode i) = .ok i

/-- A word that decodes is the word of its instruction: no bit of an accepted word is dropped (30_encoding.md R92; R110
is an inference the spec marks as its own). -/
def Obligations.EncodeOfDecodeIsIdentity : Prop :=
  ∀ (w : Word) (i : Instr), decode w = .ok i → encode i = w

/-- The decoder accepts exactly the words that select a row of the opcode table by match and mask, and no word selects
two rows (30_encoding.md R92, R102; the rows and "selects exactly one row or none", R96 and R100, are inferences the
spec marks as its own). -/
def Obligations.DecodeAcceptsExactlyTableRows : Prop :=
  ∀ w : Word,
    ((∃ i, decode w = .ok i) ↔ ∃ r ∈ opcodeRows, w &&& r.mask = r.value) ∧
    ∀ r ∈ opcodeRows, ∀ q ∈ opcodeRows, w &&& r.mask = r.value → w &&& q.mask = q.value → r = q

/-- A serialised word is 8 bytes, byte k holding bits 63-8k..56-8k, so the opcode first, and reading it back gives the
word and the bytes after it (20_memory.md R68). -/
def Obligations.SerialisedWordIsBigEndian : Prop :=
  ∀ (w : Word) (rest : List (BitVec 8)),
    Word.ofBytes (Word.toBytes w ++ rest) = some (w, rest) ∧ (Word.toBytes w).head? = some (Word.op w) ∧
    (Word.toBytes w).length = 8 ∧ ∀ k, k < 8 → (Word.toBytes w)[k]? = some (w.extractLsb' (56 - 8 * k) 8)

/-- Words the spec writes out decode to the instructions it names (30_encoding.md R110, 95_test_vectors.md V1). -/
def Obligations.SpecWordsDecode : Prop :=
  decode 0x0601FFFFFFFFFFFB = .ok (.setparam 0 1 (BitVec.ofInt 48 (-5))) ∧
  decode 0x0A0000000FA00064 = .ok (.wpts 100 4000) ∧
  decode 0x4100000000000000 = .ok .tickFast ∧
  decode 0x010000003B9ACA00 = .ok (.setfreq 1000000000) ∧
  decode 0x0E75000000000000 = .ok (.getp 7 5) ∧
  decode 0x4200000012348000 = .ok (.tickNoise 0x12348000)

/-! ## The step -/

/-- When the next word decodes to an instruction, the step takes the word off the stream and is the instruction's
execution (30_encoding.md R90, 60_exceptions.md R406). -/
def Obligations.StepExecutesNextWord : Prop :=
  ∀ (s : State) (w : Word) (rest : List Word) (i : Instr), s.input = w :: rest → decode w = .ok i →
    step s = exec i { s with input := rest }

/-- A word that selects no row, or whose operand values its operation refuses, sets BADCMD and does nothing else but
leave the stream (30_encoding.md R101). -/
def Obligations.RefusedWordOnlySetsBadCmd : Prop :=
  ∀ (s : State) (w : Word) (rest : List Word), s.input = w :: rest →
    (∀ i, decode w = .ok i → i.wellFormed = false) →
    step s = .next { s with input := rest, flags := { s.flags with badCmd := true } }

/-- Every step, in every state, completes, and takes exactly the first word of the stream (60_exceptions.md R400, R406).
That a step with no word left is a step at all is the model's choice (log 1). -/
def Obligations.EveryStepCompletesAndTakesOneWord : Prop :=
  ∀ s : State, ∃ t : State, step s = .next t ∧ t.input = s.input.tail

/-- No step changes the configuration, and the output trace is only ever appended to (10_state.md R48, R50). -/
def Obligations.StepKeepsConfigurationAndExtendsTrace : Prop :=
  ∀ s t : State, step s = .next t → t.cfg = s.cfg ∧ ∃ es : List Event, t.trace = s.trace ++ es

/-- RUN and BADCMD, once set, stay set: only reset clears them (70_reset_and_hazards.md R442, 60_exceptions.md R401). -/
def Obligations.RunAndBadCmdStaySet : Prop :=
  ∀ s t : State, step s = .next t →
    (s.flags.run = true → t.flags.run = true) ∧ (s.flags.badCmd = true → t.flags.badCmd = true)

/-- A tick writes only its own sequencing state and the outputs; a host command never writes DAC_OUT or a noise
accumulator and outputs no sample (60_exceptions.md R411, 20_memory.md R72). -/
def Obligations.ContextsWriteOnlyTheirState : Prop :=
  ∀ (i : Instr) (s t : State), exec i s = .next t →
    (isTick i = true → TickFrame s t) ∧
    (isTick i = false → t.out.dacOut = s.out.dacOut ∧ t.noise.nfFast = s.noise.nfFast ∧
      t.noise.nfSlow = s.noise.nfSlow ∧ t.noise.nfAvg = s.noise.nfAvg ∧ t.noise.nfCnt = s.noise.nfCnt ∧
      ∀ v, .dac v ∉ t.trace.drop s.trace.length)

/-! ## Invariants that every step keeps -/

/-- Every step keeps every table memory in canonical form; the form is the model's (log 3), the sizes are those of
20_memory.md R60. -/
def Obligations.StepKeepsMemoryCanonical : Prop :=
  ∀ s t : State, MemoryCanonical s → step s = .next t → MemoryCanonical t

/-- Every step keeps every parameter register in its range: "every register always holds a value in its range", which
10_state.md R29 marks as its own inference. The ranges are the ones `PutpStoresAndDerivesNothing` writes out. -/
def Obligations.StepKeepsRegistersInRange : Prop :=
  ∀ s t : State, s.cfg.valid = true → RegistersInRange s → step s = .next t → RegistersInRange t

/-- Every step keeps at most one of EN_SLOW, EN_FAST, EN_NOISE and at most one of EN_USQ, EN_PWM set, the enabled path the
one FASTMODE names, and none set before APPLY: "At most one of EN_SLOW, EN_FAST, EN_NOISE is 1", which 10_state.md R37
marks as its own inference. It is about the enables alone: SYNC is in no clause, and after PUTP of SYNC = 1 on a running
machine an enabled independent square wave and `Boundary` may both drive the pin. -/
def Obligations.StepKeepsEnablesExclusive : Prop :=
  ∀ s t : State, EnablesExclusive s → step s = .next t → EnablesExclusive t

/-- Every step keeps every written table cell in 0..4095: "values above 4095 are representable and never written", which
20_memory.md R64 marks as its own inference. -/
def Obligations.StepKeepsTableSamples : Prop :=
  ∀ s t : State, TablesHoldSamples s → step s = .next t → TablesHoldSamples t

/-- Every step keeps every cell an enabled tick can read written: "no rule ever reads an undefined table cell", which
70_reset_and_hazards.md R442 marks as its own inference. -/
def Obligations.StepKeepsReadableTablesWritten : Prop :=
  ∀ s t : State, ReadableTablesWritten s → step s = .next t → ReadableTablesWritten t

/-- Every step keeps the DutyTable sums, the inference of 43_downsampler_and_tier_buffers.md R214 ("always holds after a
rebuild"), with what holds while a phase B is pending (20_memory.md R65, R228). -/
def Obligations.StepKeepsDutyTableSums : Prop :=
  ∀ s t : State, s.cfg.valid = true → DutyTableSums s → step s = .next t → DutyTableSums t

/-- Every step keeps the fast path's position inside its half and the dither numbers in thousandths (10_state.md R33, R34,
43_downsampler_and_tier_buffers.md R228). -/
def Obligations.StepKeepsSequencerInRange : Prop :=
  ∀ s t : State, s.cfg.valid = true → SequencerInRange s → step s = .next t → SequencerInRange t

/-- Every step keeps the noise filters within 32 bits (47_noise.md R332, R333). -/
def Obligations.StepKeepsNoiseBounded : Prop :=
  ∀ s t : State, s.cfg.valid = true → NoiseBounded s → step s = .next t → NoiseBounded t

/-- Every step keeps the valid waypoint entries written and well formed (20_memory.md R66, 10_state.md R44). -/
def Obligations.StepKeepsWaypointsValid : Prop :=
  ∀ s t : State, WaypointsValid s → step s = .next t → WaypointsValid t

/-- The state after reset meets every invariant; that its configuration is CFG_REF is the model's choice (log 2). -/
def Obligations.ResetMeetsEveryInvariant : Prop :=
  State.reset.cfg.valid = true ∧ MemoryCanonical State.reset ∧ RegistersInRange State.reset ∧
    EnablesExclusive State.reset ∧ TablesHoldSamples State.reset ∧ ReadableTablesWritten State.reset ∧
    DutyTableSums State.reset ∧ SequencerInRange State.reset ∧ NoiseBounded State.reset ∧ WaypointsValid State.reset

/-- What reset leaves, under every configuration (10_state.md R49 with the reset columns of R22 to R28). -/
def Obligations.ResetLeavesTheSpecValues : Prop :=
  ∀ c : Cfg,
    let s := State.resetWith c
    (∀ r : Reg, regValue s.params r = (match r with
      | .sAmp | .sW1 | .tAmp | .aVScale | .aHZoom | .nAmp => 100
      | .cWs | .cWt => 50
      | .nColor => 500
      | .qDuty | .duty => 500000
      | .qFreq | .fTarget => 1000000000
      | _ => 0)) ∧
    s.seq = { fastMode := .slow, half := .first, waveBit := 0, increment := ⟨0, 0⟩, incBase := ⟨0, 0⟩,
              incFrac := ⟨0, 0⟩, ratio := ⟨65536, 65536⟩, dacc := ⟨0, 0⟩, seqIdx := 0, seqLen := 1 } ∧
    flagsView s = 0 ∧
    s.derived = { tc := 0, sqDelay := 0, fActual := 0, dutyAct := 0, dutyA := 500000 } ∧
    s.noise = { nfFast := 0, nfSlow := 0, nfAvg := 0, nfCnt := 0, cf := 0, lfc := 0, mw := 0, lbw := 0, hbw := 0 } ∧
    s.usq = { acc := 0, inc := ⟨0, 0⟩, half := .first, ext := false, pwmRange := 0, pwmPer := 0, pwmDty := 0 } ∧
    s.out = { dacOut := 2048, sqOut := false } ∧
    s.flags.run = false ∧ s.flags.pend = false ∧ s.flags.priorSync = false ∧ s.waypoints.count = 0 ∧
    (∀ (h : Half) (t : Tier), dutyCount s h t = 0) ∧
    (∀ sp : Space, tableOf s sp = []) ∧
    s.trace = []

/-! ## Parameter commands -/

/-- SETFREQ stores the target frequency, clamped, and runs `Update` (40_clock_and_tier.md R125); it changes no other
parameter register and nothing `HostFrame` names. -/
def Obligations.SetfreqStoresClampedTarget : Prop :=
  ∀ (imm : Imm) (s : State), ∃ t : State, exec (.setfreq imm) s = .next t ∧
    t = update { finishPending s with params := t.params } ∧
    t.params = { s.params with fTarget := BitVec.ofInt 48 (clamp imm.toNat s.cfg.fMin s.cfg.fMax) } ∧
    HostFrame s t

/-- SETPER stores the frequency of the period, with 0 ms read as F_MAX, and runs `Update` (40_clock_and_tier.md R126). -/
def Obligations.SetperStoresPeriodFrequency : Prop :=
  ∀ (imm : Imm) (s : State),
    let f : Int := if imm.toNat = 0 then s.cfg.fMax else rdiv 1000000000 imm.toNat
    ∃ t : State, exec (.setper imm) s = .next t ∧
      t = update { finishPending s with params := t.params } ∧
      t.params = { s.params with fTarget := BitVec.ofInt 48 (clamp f s.cfg.fMin s.cfg.fMax) } ∧
      HostFrame s t

/-- SETDUTY stores the duty clamped to 0..1000000 ppm and runs `Update` (43_downsampler_and_tier_buffers.md R220). -/
def Obligations.SetdutyStoresClampedDuty : Prop :=
  ∀ (imm : Imm) (s : State), ∃ t : State, exec (.setduty imm) s = .next t ∧
    t = update { finishPending s with params := t.params } ∧
    t.params = { s.params with duty := BitVec.ofNat 48 (min imm.toNat 1000000) } ∧
    HostFrame s t

/-- SETPW stores the pulse width as a share of the cycle of the target frequency then in force and runs `Update`
(43_downsampler_and_tier_buffers.md R221). -/
def Obligations.SetpwStoresPulseShare : Prop :=
  ∀ (imm : Imm) (s : State),
    let d : Int := rdiv ((imm.toNat * s.params.fTarget.toNat : Nat) : Int) 1000000
    ∃ t : State, exec (.setpw imm) s = .next t ∧
      t = update { finishPending s with params := t.params } ∧
      t.params = { s.params with duty := BitVec.ofInt 48 (clamp d 0 1000000) } ∧
      HostFrame s t

/-- TGLEXACT turns EXACT from 0 to 1 and from 1 to 0 and runs `Update` (40_clock_and_tier.md R127). -/
def Obligations.TglexactTogglesExact : Prop :=
  ∀ s : State, s.params.exact = 0 ∨ s.params.exact = 1 → ∃ t : State, exec .tglexact s = .next t ∧
    t = update { finishPending s with params := t.params } ∧
    t.params = { s.params with exact := if s.params.exact = 0 then 1 else 0 } ∧
    HostFrame s t

/-- SETPARAM of a register of banks 0..5 stores the signed value clamped to the register's range and changes no other
parameter register; bank 5 re-derives the square wave when RUN = 1, any other bank runs `Update`. With any other (A, B) it
only sets BADCMD (41_wavetable_builder.md R151). The numbers and ranges are the ones `PutpStoresAndDerivesNothing` writes
out. -/
def Obligations.SetparamStoresClampedValue : Prop :=
  ∀ (a b : Nibble) (imm : Imm) (s : State),
    (∀ r : Reg, a.toNat ≤ 5 → regAt a b = some r → ∃ t : State, exec (.setparam a b imm) s = .next t ∧
      getReg t.params r = BitVec.ofInt 48 (clamp imm.toInt (regLo s.cfg r) (regHi s.cfg r)) ∧
      (∀ q : Reg, q ≠ r → getReg t.params q = getReg s.params q) ∧
      (a.toNat ≠ 5 → t = update { finishPending s with params := t.params }) ∧
      (a.toNat = 5 → s.flags.run = true → t = deriveSquare { finishPending s with params := t.params }) ∧
      (a.toNat = 5 → s.flags.run = false → t = { finishPending s with params := t.params }) ∧
      HostFrame s t) ∧
    (5 < a.toNat ∨ regAt a b = none → exec (.setparam a b imm) s =
      .next { s with flags := { s.flags with badCmd := true } })

/-- PUTP of a register stores the clamped value after completing a pending phase B, and does nothing else: nothing is
derived. With any other (A, B) it only sets BADCMD (48_system.md R364). The numbers (A, B), the registers they name and
the ranges are the tables of 10_state.md R22 to R28 row by row, `registerTable`; the names, numbers, ranges and signs
that the other statements use agree with it. -/
def Obligations.PutpStoresAndDerivesNothing : Prop :=
  ∀ (a b : Nibble) (imm : Imm) (s : State),
    (∀ row ∈ registerTable s.cfg, row.a = a → row.b = b → ∃ p : Params,
      exec (.putp a b imm) s = .next { finishPending s with params := p } ∧
      row.field p = BitVec.ofInt 48 (clamp imm.toInt row.lo row.hi) ∧
      ∀ other ∈ registerTable s.cfg, (other.a, other.b) ≠ (a, b) → other.field p = other.field s.params) ∧
    ((∀ row ∈ registerTable s.cfg, (row.a, row.b) ≠ (a, b)) → exec (.putp a b imm) s =
      .next { s with flags := { s.flags with badCmd := true } }) ∧
    (∀ r : Reg, regAt a b = some r ↔ ∃ row ∈ registerTable s.cfg, row.a = a ∧ row.b = b ∧ row.reg = r) ∧
    (∀ row ∈ registerTable s.cfg, regLo s.cfg row.reg = row.lo ∧ regHi s.cfg row.reg = row.hi ∧
      (∀ p : Params, getReg p row.reg = row.field p) ∧
      (∀ p : Params, regValue p row.reg = if row.lo < 0 then (row.field p).toInt else (row.field p).toNat))

/-- QSTAT, SETPARAM and PUTP refuse exactly the operand values the spec lists, no other operation refuses any, a refusal
sets BADCMD and changes nothing else, and an operation that is not refused leaves BADCMD as it was; GETP of an (A, B)
that names no register answers 0 and SETSHAPE above 4 is SETSHAPE of 4 (30_encoding.md R101, R103, R104). -/
def Obligations.OperandsRefusedByValue : Prop :=
  ∀ (i : Instr) (s : State),
    (i.wellFormed = false ↔
      (∃ a, i = .qstat a ∧ 2 < a.toNat) ∨
      (∃ a b v, i = .setparam a b v ∧ (5 < a.toNat ∨ regAt a b = none)) ∨
      (∃ a b v, i = .putp a b v ∧ (6 < a.toNat ∨ regAt a b = none))) ∧
    (i.wellFormed = false → exec i s = .next { s with flags := { s.flags with badCmd := true } }) ∧
    (i.wellFormed = true → ∃ t, exec i s = .next t ∧ t.flags.badCmd = s.flags.badCmd) ∧
    (∀ a b : Nibble, i = .getp a b → a ≠ 7 → regAt a b = none →
      exec i s = .next { s with trace := s.trace ++ [.resp (0x0E#8 ++ a ++ b ++ 0#48)] }) ∧
    (∀ a : Nibble, i = .setshape a → 4 < a.toNat → exec i s = exec (.setshape 4) s)

/-- SETSHAPE selects the family, clamped to 4; entering noise mode saves and clears SYNC, leaving it restores SYNC; when
RUN = 1 the mode switch runs. Every other parameter register keeps its value (41_wavetable_builder.md R150). For a SHAPE
above 4 and a SYNC above 1, which no write stores (10_state.md R29), it states the model's choice (log 7): such a SHAPE
reads as noise, and PRIOR_SYNC takes whether SYNC is 1. -/
def Obligations.SetshapeSavesAndRestoresSync : Prop :=
  ∀ (a : Nibble) (s : State), ∃ t : State, exec (.setshape a) s = .next t ∧
    t.params.shape = BitVec.ofNat 48 (min a.toNat 4) ∧
    t.params.sync = (if 4 ≤ a.toNat ∧ s.params.shape.toNat < 4 then 0
      else if a.toNat < 4 ∧ 4 ≤ s.params.shape.toNat then (if s.flags.priorSync then 1 else 0) else s.params.sync) ∧
    t.flags.priorSync = (if 4 ≤ a.toNat ∧ s.params.shape.toNat < 4 then s.params.sync == 1 else s.flags.priorSync) ∧
    (∀ q : Reg, q ≠ .shape → q ≠ .sync → getReg t.params q = getReg s.params q) ∧
    (let w := { finishPending s with
        params := t.params
        flags := { (finishPending s).flags with priorSync := t.flags.priorSync } }
     t = if s.flags.run then modeSwitch w else w) ∧
    t.waypoints = s.waypoints ∧ t.flags.run = s.flags.run ∧ t.out.dacOut = s.out.dacOut ∧ AddsOnlySquareLevels s t

/-- TGLSYNC in noise mode flips PRIOR_SYNC and nothing else. In a wave mode it flips SYNC, leaves every table, every
step size and the position in the wave as `FinishPending` leaves them and keeps the analog path's enables; when RUN = 1
it hands the pin over: to the wave's half when SYNC becomes 1, to the independent square wave when SYNC becomes 0
(45_sequencer_and_sync_square.md R290). -/
def Obligations.TglsyncHandsOverThePin : Prop :=
  ∀ s : State,
    (s.params.shape.toNat = 4 → exec .tglsync s =
      .next { finishPending s with flags := { (finishPending s).flags with priorSync := !s.flags.priorSync } }) ∧
    (s.params.shape.toNat < 4 → s.params.sync = 0 ∨ s.params.sync = 1 → ∃ t : State, exec .tglsync s = .next t ∧
      t.params = { s.params with sync := if s.params.sync = 0 then 1 else 0 } ∧
      t.tables = (finishPending s).tables ∧ t.seq = (finishPending s).seq ∧ t.derived = s.derived ∧
      t.noise = s.noise ∧ t.flags.pend = false ∧
      t.flags.enSlow = s.flags.enSlow ∧ t.flags.enFast = s.flags.enFast ∧ t.flags.enNoise = s.flags.enNoise ∧
      (s.flags.run = false → t.flags.enUsq = false ∧ t.flags.enPwm = false ∧ t.usq = s.usq ∧ t.out = s.out ∧
        t.trace = s.trace) ∧
      (s.flags.run = true → s.params.sync = 0 → t.flags.enUsq = false ∧ t.flags.enPwm = false ∧ t.usq = s.usq ∧
        t.out.sqOut = level s.seq.half ∧ t.trace = s.trace ++ [.sq (level s.seq.half) 0]) ∧
      (s.flags.run = true → s.params.sync = 1 → t = deriveSquare { finishPending s with params := t.params }) ∧
      HostFrame s t)

/-! ## Waypoints -/

/-- WPT appends one plain entry where it fits, and drops it and sets UPLOAD_TRUNC where it does not; every other
waypoint cell keeps its value (41_wavetable_builder.md R152). -/
def Obligations.WptAppendsOneEntry : Prop :=
  ∀ (v : Sample) (s : State),
    (s.waypoints.count.toNat < 4096 → ∃ t : State, exec (.wpt v) s = .next t ∧
      t.waypoints.count.toNat = s.waypoints.count.toNat + 1 ∧
      readCell t .wp s.waypoints.count.toNat = (0#4) ++ v ∧
      (∀ i, i ≠ s.waypoints.count.toNat → readCell t .wp i = readCell s .wp i) ∧
      t = { finishPending s with waypoints := t.waypoints }) ∧
    (4096 ≤ s.waypoints.count.toNat → exec (.wpt v) s =
      .next { finishPending s with flags := { (finishPending s).flags with uploadTrunc := true } })

/-- WPTS appends a stepped entry and the plain one stacked on it where both fit, and drops the pair whole and sets
UPLOAD_TRUNC where they do not (41_wavetable_builder.md R153). -/
def Obligations.WptsAppendsSteppedPair : Prop :=
  ∀ (v w : Sample) (s : State),
    (s.waypoints.count.toNat + 2 ≤ 4096 → ∃ t : State, exec (.wpts v w) s = .next t ∧
      t.waypoints.count.toNat = s.waypoints.count.toNat + 2 ∧
      readCell t .wp s.waypoints.count.toNat = (1#4) ++ v ∧
      readCell t .wp (s.waypoints.count.toNat + 1) = (0#4) ++ w ∧
      (∀ i, i ≠ s.waypoints.count.toNat → i ≠ s.waypoints.count.toNat + 1 → readCell t .wp i = readCell s .wp i) ∧
      t = { finishPending s with waypoints := t.waypoints }) ∧
    (4096 < s.waypoints.count.toNat + 2 → exec (.wpts v w) s =
      .next { finishPending s with flags := { (finishPending s).flags with uploadTrunc := true } })

/-- WPCLR empties the waypoint memory and clears UPLOAD_TRUNC; the cells keep their bits (41_wavetable_builder.md R155).
-/
def Obligations.WpclrEmptiesWaypoints : Prop :=
  ∀ s : State, ∃ t : State, exec .wpclr s = .next t ∧ t.waypoints.count = 0 ∧
    (∀ i, readCell t .wp i = readCell s .wp i) ∧
    t = { finishPending s with
      waypoints := t.waypoints
      flags := { (finishPending s).flags with uploadTrunc := false } }

/-! ## Status and system -/

/-- NOP is the all-zero word and changes nothing (48_system.md R360). -/
def Obligations.NopChangesNothing : Prop :=
  encode .nop = 0 ∧ ∀ s : State, exec .nop s = .next s

/-- QSTAT with a selector in 0..2 appends one response with the actual frequency, the actual duty or the tier/mode word,
and changes nothing else; with any other selector it only sets BADCMD (48_system.md R361). -/
def Obligations.QstatRespondsWithStatus : Prop :=
  ∀ s : State,
    exec (.qstat 0) s = .next { s with trace := s.trace ++ [.resp (0x0D#8 ++ 0#4 ++ 0#4 ++ s.derived.fActual)] } ∧
    exec (.qstat 1) s = .next { s with trace := s.trace ++
      [.resp (0x0D#8 ++ 1#4 ++ 0#4 ++ s.derived.dutyAct.setWidth 48)] } ∧
    exec (.qstat 2) s = .next { s with trace := s.trace ++
      [.resp (0x0D#8 ++ 2#4 ++ 0#4 ++ BitVec.ofInt 48 ((s.seq.fastMode.toInt + 1) + s.params.shape.toNat * 2 ^ 4 +
        s.params.exact.toNat * 2 ^ 8 + s.params.sync.toNat * 2 ^ 9))] } ∧
    ∀ a : Nibble, 2 < a.toNat → exec (.qstat a) s = .next { s with flags := { s.flags with badCmd := true } }

/-- GETP appends one response with the register, the status value of bank 7, or 0, and changes nothing else; it is never
refused (48_system.md R363). -/
def Obligations.GetpRespondsWithRegister : Prop :=
  ∀ (a b : Nibble) (s : State), ∃ v : Imm,
    exec (.getp a b) s = .next { s with trace := s.trace ++ [.resp (0x0E#8 ++ a ++ b ++ v)] } ∧
    (∀ r : Reg, regAt a b = some r → v = getReg s.params r) ∧
    (a = 7 → v = statusValue s b) ∧
    (a ≠ 7 → regAt a b = none → v = 0)

/-- The status bank: every value zero-extended to 48 bits but FASTMODE, which is sign-extended, and FLAGS with each
one-bit register at its place (10_state.md R36, R39). -/
def Obligations.StatusBankFollowsItsTable : Prop :=
  ∀ s : State,
    (statusValue s 0).toInt = s.seq.fastMode.toInt ∧
    statusValue s 1 = s.derived.fActual ∧
    (statusValue s 2).toNat = s.derived.dutyAct.toNat ∧
    (statusValue s 3).toNat = s.derived.tc.toNat ∧
    (statusValue s 4).toNat = s.derived.sqDelay.toNat ∧
    (statusValue s 5).toNat =
      (if s.seq.half = .second then 1 else 0) + (if s.flags.dutyNot50 then 2 else 0) +
      (if s.flags.extreme then 4 else 0) + (if s.flags.ditherOn then 8 else 0) + (if s.flags.pend then 16 else 0) +
      (if s.flags.pendHalf = .second then 32 else 0) + (if s.flags.uploadTrunc then 64 else 0) +
      (if s.flags.badCmd then 128 else 0) + (if s.flags.enSlow then 256 else 0) +
      (if s.flags.enFast then 512 else 0) + (if s.flags.enNoise then 1024 else 0) +
      (if s.flags.enUsq then 2048 else 0) + (if s.flags.enPwm then 4096 else 0) + (if s.flags.run then 8192 else 0) +
      (if s.usq.half = .second then 16384 else 0) + (if s.usq.ext then 32768 else 0) +
      (if s.flags.priorSync then 65536 else 0) ∧
    (statusValue s 6).toNat = s.waypoints.count.toNat ∧
    (statusValue s 7).toNat = (s.seq.increment.get .first).toNat ∧
    (statusValue s 8).toNat = (s.seq.increment.get .second).toNat ∧
    (statusValue s 9).toNat = s.seq.waveBit.toNat ∧
    (statusValue s 10).toNat = s.seq.seqIdx.toNat ∧
    (statusValue s 11).toNat = s.seq.seqLen.toNat ∧
    (statusValue s 12).toNat = s.out.dacOut.toNat ∧
    (statusValue s 13).toNat = s.out.sqOut.toNat ∧
    (statusValue s 14).toNat = s.derived.dutyA.toNat ∧
    (statusValue s 15).toNat =
      s.usq.pwmRange.toNat * 2 ^ 32 + s.usq.pwmDty.toNat * 2 ^ 16 + s.usq.pwmPer.toNat

/-- FGSTEP completes a pending phase B: half PEND_HALF takes the values held in SH, the other half and everything else
keep theirs; with nothing pending it changes nothing (48_system.md R366, 43_downsampler_and_tier_buffers.md R225, R227).
That PEND_HALF, bit 5 of FLAGS, and SH itself keep their values once PEND is 0 is the model's, not the spec's: the one is
deduced (log 11), the other chosen (log 5), since the spec gives them a meaning only while PEND = 1 (10_state.md R36, R47).
-/
def Obligations.FgstepCompletesPhaseB : Prop :=
  ∀ s : State,
    (s.flags.pend = false → exec .fgstep s = .next s) ∧
    (s.flags.pend = true → ∃ t : State, exec .fgstep s = .next t ∧
      t = { s with tables := t.tables, seq := t.seq, flags := { s.flags with pend := false } } ∧
      t.seq = { s.seq with
        incBase := t.seq.incBase, incFrac := t.seq.incFrac, ratio := t.seq.ratio, increment := t.seq.increment } ∧
      t.tables.wf.get s.flags.pendHalf = s.shadow.wf ∧ t.tables.rt.get s.flags.pendHalf = s.shadow.rt ∧
      t.tables.dutyT.get s.flags.pendHalf = s.shadow.duty ∧
      t.seq.incBase.get s.flags.pendHalf = s.shadow.incBase ∧ t.seq.incFrac.get s.flags.pendHalf = s.shadow.incFrac ∧
      t.seq.ratio.get s.flags.pendHalf = s.shadow.ratio ∧ t.seq.increment.get s.flags.pendHalf = s.shadow.increment ∧
      (∀ k : Tier, (t.tables.tb.get k).get s.flags.pendHalf =
        if s.seq.fastMode = .fast k then s.shadow.tb else (s.tables.tb.get k).get s.flags.pendHalf) ∧
      (∀ k : Tier, (t.tables.tb.get k).get s.flags.pendHalf.other = (s.tables.tb.get k).get s.flags.pendHalf.other) ∧
      t.tables.wf.get s.flags.pendHalf.other = s.tables.wf.get s.flags.pendHalf.other ∧
      t.tables.rt.get s.flags.pendHalf.other = s.tables.rt.get s.flags.pendHalf.other ∧
      t.tables.dutyT.get s.flags.pendHalf.other = s.tables.dutyT.get s.flags.pendHalf.other ∧
      t.seq.increment.get s.flags.pendHalf.other = s.seq.increment.get s.flags.pendHalf.other ∧
      t.seq.ratio.get s.flags.pendHalf.other = s.seq.ratio.get s.flags.pendHalf.other ∧
      t.seq.incBase.get s.flags.pendHalf.other = s.seq.incBase.get s.flags.pendHalf.other ∧
      t.seq.incFrac.get s.flags.pendHalf.other = s.seq.incFrac.get s.flags.pendHalf.other)

/-- Every state-writing host command the operation accepts first completes a pending phase B
(43_downsampler_and_tier_buffers.md R227). -/
def Obligations.HostWritesFinishPendingFirst : Prop :=
  ∀ (i : Instr) (s : State), isTick i = false → i.wellFormed = true → i ≠ .nop → (∀ a, i ≠ .qstat a) →
    (∀ a b, i ≠ .getp a b) → exec i s = exec i (finishPending s)

/-! ## Update and the mode switch -/

/-- COMMIT, and so `Update`, where it is no two-phase commit: before APPLY nothing is derived, in noise mode only the
noise coefficients are, and a change of tier is the mode switch that APPLY runs (40_clock_and_tier.md R128, 47_noise.md
R334, 41_wavetable_builder.md R154). -/
def Obligations.CommitWithoutPhases : Prop :=
  ∀ s : State, s.flags.pend = false →
    (s.flags.run = false → exec .commit s = .next s) ∧
    (s.flags.run = true → s.params.shape.toNat = 4 → ∃ t : State, exec .commit s = .next t ∧
      t = { s with noise := t.noise } ∧
      t.noise = { s.noise with
        cf := BitVec.ofInt 16 (pwl s.cfg.mapCf s.params.nColor.toNat)
        lfc := BitVec.ofInt 16 (pwl s.cfg.mapLfc s.params.nColor.toNat)
        mw := BitVec.ofInt 16 (pwl s.cfg.mapMw s.params.nColor.toNat)
        lbw := BitVec.ofInt 16 (pwl s.cfg.mapLbw s.params.nColor.toNat)
        hbw := BitVec.ofInt 16 (pwl s.cfg.mapHbw s.params.nColor.toNat) }) ∧
    (s.flags.run = true → s.params.shape.toNat < 4 → selectTier s ≠ s.seq.fastMode →
      exec .commit s = exec .applyAll s)

/-- COMMIT on a running wave whose tier does not change is phase A: the shared registers and flags and every table and
step size of the half not being output take their new values, the half being output keeps every table and step size, the
position in the wave and the enables stay, and phase B is pending (40_clock_and_tier.md R128,
43_downsampler_and_tier_buffers.md R225, R226). -/
def Obligations.CommitPhaseAWritesTheOtherHalf : Prop :=
  ∀ s : State, s.flags.pend = false → s.flags.run = true → s.params.shape.toNat < 4 →
    selectTier s = s.seq.fastMode → ∃ t : State, exec .commit s = .next t ∧
      let h := s.seq.half
      let n := derive s s.seq.fastMode
      let new := n.halves.get h.other
      t.flags = { s.flags with
        extreme := n.common.extreme, dutyNot50 := n.common.dutyNot50, ditherOn := n.common.ditherOn
        pend := true, pendHalf := h } ∧
      t.derived = n.common.regs ∧ t.shadow = n.halves.get h ∧
      t.seq = { s.seq with
        incBase := t.seq.incBase, incFrac := t.seq.incFrac, ratio := t.seq.ratio, increment := t.seq.increment } ∧
      (∀ i, readCell t (.wf h) i = readCell s (.wf h) i) ∧
      (∀ i, readCell t (.rt h) i = readCell s (.rt h) i) ∧
      (∀ k i, readCell t (.tb k h) i = readCell s (.tb k h) i) ∧
      (∀ k, s.seq.fastMode ≠ .fast k → ∀ i, readCell t (.tb k h.other) i = readCell s (.tb k h.other) i) ∧
      (∀ k, dutyCount t h k = dutyCount s h k) ∧
      t.seq.increment.get h = s.seq.increment.get h ∧ t.seq.incBase.get h = s.seq.incBase.get h ∧
      t.seq.incFrac.get h = s.seq.incFrac.get h ∧ t.seq.ratio.get h = s.seq.ratio.get h ∧
      (∀ i, i < 4097 → readCell t (.wf h.other) i = ((buildWave s s.seq.fastMode).get h.other).getD i 0) ∧
      (∀ k, k < 160 → readCell t (.rt h.other) k = readCell t (.wf h.other) (k * 128 / 5)) ∧
      (∀ k, dutyCount t h.other k = countFor s.cfg s.params.duty.toNat h.other k % 2 ^ 16) ∧
      (∀ (k : Tier) (i : Nat), s.seq.fastMode = .fast k → i < samplesPerCycle k →
        readCell t (.tb k h.other) i =
          if countFor s.cfg s.params.duty.toNat h.other k = 0 then 2048
          else readCell t (.rt h.other) (min i (countFor s.cfg s.params.duty.toNat h.other k - 1) * 160 /
            countFor s.cfg s.params.duty.toNat h.other k)) ∧
      t.tables.wf.get h.other = new.wf ∧ t.tables.rt.get h.other = new.rt ∧ t.tables.dutyT.get h.other = new.duty ∧
      (∀ k, s.seq.fastMode = .fast k → (t.tables.tb.get k).get h.other = new.tb) ∧
      t.seq.increment.get h.other = new.increment ∧ t.seq.incBase.get h.other = new.incBase ∧
      t.seq.incFrac.get h.other = new.incFrac ∧ t.seq.ratio.get h.other = new.ratio ∧
      t.trace = s.trace ∧ t.usq = s.usq ∧ t.out = s.out ∧ t.noise = s.noise ∧ t.waypoints = s.waypoints ∧
      t.params = s.params ∧ t.input = s.input ∧ t.cfg = s.cfg

/-- What holds right after APPLY with a wave family: FASTMODE is the tier of R123's chain and its path is the one
enabled, the position restarts on the first half of nonzero length, the DutyTable's sums and the latched length hold,
every readable cell is written and in range, nothing is pending; with SYNC = 1 the pin takes the level of that half, with
SYNC = 0 the independent square wave runs: "all of these hold", which 40_clock_and_tier.md R131 marks as its own inference
from R130, and more of R130. -/
def Obligations.ApplyStartsTheSelectedWave : Prop :=
  ∀ s : State, s.cfg.valid = true → s.params.shape.toNat < 4 → ∃ t : State, exec .applyAll s = .next t ∧
    t.flags.run = true ∧ t.flags.pend = false ∧ t.flags.enNoise = false ∧
    t.seq.fastMode = (if s.params.exact = 1 then .slow
      else if s.params.fTarget.toNat < 1000000000 then .slow
      else if s.params.fTarget.toNat < s.cfg.tierT0 then .fast .t0
      else if s.params.fTarget.toNat < s.cfg.tierT1 then .fast .t1
      else if s.params.fTarget.toNat < s.cfg.tierT2 then .fast .t2
      else .fast .t3) ∧
    (t.flags.enSlow = true ↔ t.seq.fastMode = .slow) ∧ (t.flags.enFast = true ↔ t.seq.fastMode ≠ .slow) ∧
    t.seq.waveBit = 0 ∧ t.seq.seqIdx = 0 ∧ t.seq.dacc = ⟨0, 0⟩ ∧
    (t.seq.fastMode = .slow → t.seq.half = if 0 < t.derived.dutyA.toNat then .first else .second) ∧
    (∀ k : Tier, t.seq.fastMode = .fast k → t.seq.half = if 0 < dutyCount t .first k then .first else .second) ∧
    (∀ k : Tier, dutyCount t .first k + dutyCount t .second k = samplesPerCycle k) ∧
    (∀ k : Tier, t.seq.fastMode = .fast k → t.seq.seqLen.toNat = dutyCount t t.seq.half k) ∧
    (∀ (h : Half) (i : Nat), i < 4097 → ∃ c : Cell, Memory.find (t.tables.wf.get h) i = some c ∧ c.toNat ≤ 4095) ∧
    (∀ (h : Half) (i : Nat), i < 160 → ∃ c : Cell, Memory.find (t.tables.rt.get h) i = some c ∧ c.toNat ≤ 4095) ∧
    (∀ (k : Tier) (h : Half) (i : Nat), t.seq.fastMode = .fast k → i < samplesPerCycle k →
      ∃ c : Cell, Memory.find ((t.tables.tb.get k).get h) i = some c ∧ c.toNat ≤ 4095) ∧
    (s.params.sync = 1 → t.flags.enUsq = false ∧ t.flags.enPwm = false ∧ t.out.sqOut = level t.seq.half ∧
      t.trace = s.trace ++ [.sq (level t.seq.half) 0]) ∧
    (s.params.sync = 0 → s.cfg.usqT3 ≤ s.params.qFreq.toNat →
      t.flags.enUsq = false ∧ t.flags.enPwm = true ∧ t.out.sqOut = s.out.sqOut ∧ t.trace = s.trace) ∧
    (s.params.sync = 0 → s.params.qFreq.toNat < s.cfg.usqT3 →
      t.flags.enUsq = true ∧ t.flags.enPwm = false ∧ t.out.sqOut = level t.usq.half ∧
      t.trace = s.trace ++ [.sq (level t.usq.half) 0]) ∧
    t.params = s.params ∧ HostFrame { s with flags := { s.flags with run := true } } t

/-- The tables APPLY derives: each WF cell is the rendered level clamped to 0..4095 with the guard cell a copy of cell
4095, RT takes every 25.6th cell of WF, and each half of the active tier's buffer walks RT in as many steps as its
count, repeats its last sample after them, and is CENTER where the count is 0 (41_wavetable_builder.md R185,
43_downsampler_and_tier_buffers.md R211, R217). -/
def Obligations.ApplyFillsTheTables : Prop :=
  ∀ s : State, s.params.shape.toNat < 4 → ∃ t : State, exec .applyAll s = .next t ∧ ∀ h : Half,
    (∀ i, i < 4096 → (readCell t (.wf h) i).toInt =
      clamp (waveLevel s.params (arbSrc s.cfg.arbSharp t.seq.fastMode (positions s)) h i) 0 4095) ∧
    readCell t (.wf h) 4096 = readCell t (.wf h) 4095 ∧
    (∀ k, k < 160 → readCell t (.rt h) k = readCell t (.wf h) (k * 128 / 5)) ∧
    ∀ (k : Tier) (i : Nat), t.seq.fastMode = .fast k → i < samplesPerCycle k →
      readCell t (.tb k h) i =
        if countFor s.cfg s.params.duty.toNat h k = 0 then 2048
        else readCell t (.rt h) (min i (countFor s.cfg s.params.duty.toNat h k - 1) * 160 /
          countFor s.cfg s.params.duty.toNat h k)

/-- Every register and flag APPLY derives on a fast tier and on the slow path, each formula written out, where the value
fits its register: TC, F_ACTUAL, DUTY_ACT, DUTYA, EXTREME, DUTY_NOT_50, DITHER_ON and the step sizes with RATIO
(40_clock_and_tier.md R121, R122, R129, 44_phase_accumulator.md R241 to R244, 43_downsampler_and_tier_buffers.md R225),
and SQ_DELAY on both paths (45_sequencer_and_sync_square.md R288). -/
def Obligations.ApplyDerivesTheRegisters : Prop :=
  ∀ s : State, s.cfg.valid = true → s.params.shape.toNat < 4 → s.params.duty.toNat ≤ 1000000 →
    let f := s.params.fTarget.toNat
    let d := s.params.duty.toNat
    ∃ t : State, exec .applyAll s = .next t ∧
      (t.flags.ditherOn = true ↔ t.seq.fastMode = .slow ∧ f < 100000) ∧
      (t.flags.dutyNot50 = true ↔ t.derived.dutyA.toNat ≠ 500000) ∧
      (t.flags.extreme = true ↔ t.derived.dutyA.toNat = 0 ∨ t.derived.dutyA.toNat = 1000000) ∧
      (∀ k : Tier, t.seq.fastMode = .fast k →
        let tc := clampNat (rdivNat (s.cfg.fTimer * 1000000) (f * samplesPerCycle k)) s.cfg.tcMin s.cfg.tcMax
        let freq := rdivNat (s.cfg.fTimer * 1000000) (tc * samplesPerCycle k)
        t.derived.tc.toNat = tc ∧ (freq < 2 ^ 48 → t.derived.fActual.toNat = freq) ∧
        t.derived.dutyAct.toNat = rdivNat (dutyCount t .first k * 1000000) (samplesPerCycle k) ∧
        t.derived.dutyA.toNat = d ∧
        ∀ h, t.seq.increment.get h = 0 ∧ t.seq.incBase.get h = 0 ∧ t.seq.incFrac.get h = 0 ∧
          t.seq.ratio.get h = 65536) ∧
      (t.seq.fastMode = .slow →
        let rate := s.cfg.fTimer / s.cfg.tcSlow
        let dmin := min ((f + rate - 1) / rate) 500000
        let da := if d = 0 ∨ d = 1000000 then d else clampNat d dmin (1000000 - dmin)
        let cn := if s.params.exact = 1 then s.cfg.calNum else 1
        let cd := if s.params.exact = 1 then s.cfg.calDen else 1
        let share := fun h : Half => if h = .first then da else 1000000 - da
        let ideal := fun x : Nat => min (f * cn * 2 ^ 33 * 500 / (cd * rate * x)) ((2 ^ 32 - 1) * 1000)
        let step := fun h : Half => if 0 < share h then ideal (share h) else ideal (share h.other)
        let freq := if da = 0 ∨ da = 1000000 then
            rdivNat (rate * 1000000 * step (if da = 1000000 then .first else .second) * cd) (2 ^ 32 * 1000 * cn)
          else if step .first + step .second = 0 then 0
          else rdivNat (rate * 1000000 * step .first * step .second * cd)
            (2 ^ 32 * 1000 * (step .first + step .second) * cn)
        (s.cfg.tcSlow < 2 ^ 32 → t.derived.tc.toNat = s.cfg.tcSlow) ∧
        (freq < 2 ^ 48 → t.derived.fActual.toNat = freq) ∧
        t.derived.dutyA.toNat = da ∧ t.derived.dutyAct = t.derived.dutyA ∧
        ∀ h, (t.seq.incBase.get h).toNat = step h / 1000 ∧ t.seq.incFrac.get h = step h % 1000 ∧
          (t.seq.increment.get h).toNat =
            (if f < 100000 then step h / 1000 else min ((step h + 500) / 1000) (2 ^ 32 - 1)) ∧
          let ratio := if 0 < step h then step h.other * 65536 / step h else 65536
          (ratio < 2 ^ 52 → (t.seq.ratio.get h).toNat = ratio)) ∧
      let tc := if t.seq.fastMode = .slow then s.cfg.tcSlow else t.derived.tc.toNat
      let x := ((t.derived.dutyAct.toNat : Int) - 500000).natAbs
      let fn := if t.flags.extreme then 1 else s.cfg.ldf
      let fd := if t.flags.extreme then 1 else x + s.cfg.ldf
      let delay := max 0 (tdiv (((tc : Int) - s.cfg.hrd) * s.cfg.lrfNum * fn) (s.cfg.lrfDen * fd))
      (delay < 2 ^ 32 → (t.derived.sqDelay.toNat : Int) = delay)

/-- APPLY in noise mode: RUN and EN_NOISE are set, SYNC is held 0 and remembered, the wave tables, the sequencing state
and FASTMODE stay as `FinishPending` leaves them (48_system.md R365, 40_clock_and_tier.md R130, 70_reset_and_hazards.md
R443). -/
def Obligations.ApplyStartsNoise : Prop :=
  ∀ s : State, s.params.shape.toNat = 4 → ∃ t : State, exec .applyAll s = .next t ∧
    t.flags.run = true ∧ t.flags.enNoise = true ∧ t.flags.enSlow = false ∧ t.flags.enFast = false ∧
    t.flags.pend = false ∧
    t.params = { s.params with sync := if s.params.sync = 1 then 0 else s.params.sync } ∧
    t.flags.priorSync = (s.flags.priorSync || s.params.sync == 1) ∧
    t.tables = (finishPending s).tables ∧ t.seq = (finishPending s).seq ∧ t.derived = s.derived ∧
    t.noise = (noiseCoeffs s).noise ∧
    t.waypoints = s.waypoints ∧ t.out.dacOut = s.out.dacOut ∧ AddsOnlySquareLevels s t

/-- What a change of Q_FREQ or Q_DUTY derives while the machine runs with SYNC = 0: from USQ_T[3] up the PWM registers,
below it the steps of the accumulator path, which restarts at its first nonzero half and outputs that half's level
(46_unsynced_square.md R311, R312). -/
def Obligations.SquareWaveFollowsBankFive : Prop :=
  ∀ (b : Nibble) (imm : Imm) (s : State), s.cfg.valid = true → s.flags.run = true → s.params.sync = 0 → b.toNat ≤ 1 →
    ∃ t : State, exec (.setparam 5 b imm) s = .next t ∧
      t.tables = (finishPending s).tables ∧ t.seq = (finishPending s).seq ∧ t.waypoints = s.waypoints ∧
      t.noise = s.noise ∧ t.derived = s.derived ∧ t.out.dacOut = s.out.dacOut ∧
      let f := t.params.qFreq.toNat
      let d := t.params.qDuty.toNat
      let r := if s.cfg.usqT0 ≤ f then 0 else if s.cfg.usqT1 ≤ f then 1 else if s.cfg.usqT2 ≤ f then 2 else 3
      let n := slowDerive s.cfg f d false 200000
      (s.cfg.usqT3 ≤ f → t.flags.enPwm = true ∧ t.flags.enUsq = false ∧ t.usq.pwmRange.toNat = r ∧
        (clampNat (rdivNat (s.cfg.fPwm * 1000000) (2 ^ r * f)) 2 s.cfg.pwmPerMax < 2 ^ 16 →
          t.usq.pwmPer.toNat = clampNat (rdivNat (s.cfg.fPwm * 1000000) (2 ^ r * f)) 2 s.cfg.pwmPerMax) ∧
        t.usq.pwmDty = BitVec.ofNat 16 (rdivNat (t.usq.pwmPer.toNat * d) 1000000) ∧
        t.usq.acc = s.usq.acc ∧ t.usq.inc = s.usq.inc ∧ t.usq.half = s.usq.half ∧ t.usq.ext = s.usq.ext ∧
        t.out = s.out ∧ t.trace = s.trace) ∧
      (f < s.cfg.usqT3 → t.flags.enPwm = false ∧ t.flags.enUsq = true ∧ t.usq.acc = 0 ∧ t.usq.ext = n.extreme ∧
        (∀ h, (t.usq.inc.get h).toNat = min ((n.step.get h + 500) / 1000) (2 ^ 32 - 1)) ∧
        t.usq.half = (if 0 < n.dutyA then Half.first else Half.second) ∧
        t.out.sqOut = level t.usq.half ∧ t.trace = s.trace ++ [.sq (level t.usq.half) 0] ∧
        t.usq.pwmRange = s.usq.pwmRange ∧ t.usq.pwmPer = s.usq.pwmPer ∧ t.usq.pwmDty = s.usq.pwmDty)

/-! ## Ticks -/

/-- A tick whose enable is 0 changes nothing at all (60_exceptions.md R404). -/
def Obligations.DisabledTicksAreIgnored : Prop :=
  ∀ s : State,
    (s.flags.enSlow = false → exec .tickSlow s = .next s) ∧
    (s.flags.enFast = false → exec .tickFast s = .next s) ∧
    (s.flags.enNoise = false → ∀ rnd, exec (.tickNoise rnd) s = .next s) ∧
    (s.flags.enUsq = false → exec .tickUsq s = .next s) ∧
    (s.flags.enSlow = false ∨ s.flags.ditherOn = false → exec .tickDither s = .next s)

/-- TICK_SLOW. Disabled it changes nothing. Enabled, without a carry of the accumulator it outputs the cell at the top
12 bits. With a carry it outputs the last cell of the half: on the single active half of an extreme duty it stays there
and gives the synchronised square wave one pulse; otherwise it flips HALF, re-bases the residual in exact mode at a duty
other than 50 %, and gives the synchronised square wave its new level. Nothing else changes (44_phase_accumulator.md
R245, with R246 to R250). -/
def Obligations.TickSlowFollowsItsRule : Prop :=
  ∀ s : State, (s.flags.enSlow = false → exec .tickSlow s = .next s) ∧ (s.flags.enSlow = true →
    let h := s.seq.half
    let sum := s.seq.waveBit.toNat + (s.seq.increment.get h).toNat
    let last := (readCell s (.wf h) 4095).setWidth 12
    let active := if s.derived.dutyA = 0 then Half.second else Half.first
    (sum < 2 ^ 32 →
      let v := (readCell s (.wf h) (sum / 2 ^ 20)).setWidth 12
      exec .tickSlow s = .next { s with
        seq := { s.seq with waveBit := BitVec.ofNat 32 sum }
        out := { s.out with dacOut := v }
        trace := s.trace ++ [.dac v] }) ∧
    (2 ^ 32 ≤ sum → s.flags.extreme = true → h = active →
      exec .tickSlow s = .next { s with
        seq := { s.seq with waveBit := BitVec.ofNat 32 (sum - 2 ^ 32) }
        out := { s.out with dacOut := last }
        trace := s.trace ++ (if s.params.sync = 0 then [.dac last] else [.dac last, .sqPulse s.derived.sqDelay]) }) ∧
    (2 ^ 32 ≤ sum → s.flags.extreme = false ∨ h ≠ active →
      let res := sum - 2 ^ 32
      let kept := if s.params.exact = 1 ∧ s.flags.dutyNot50 = true then
        min (res * (s.seq.ratio.get h).toNat / 65536) (2 ^ 32 - 1) else res
      exec .tickSlow s = .next { s with
        seq := { s.seq with half := h.other, waveBit := BitVec.ofNat 32 kept }
        out := { s.out with
          dacOut := last
          sqOut := if s.params.sync = 0 then s.out.sqOut else level h.other }
        trace := s.trace ++ (if s.params.sync = 0 then [.dac last]
          else [.dac last, .sq (level h.other) s.derived.sqDelay]) }))

/-- TICK_FAST. Disabled it changes nothing. Enabled in tier `k`, one cell of the tier's buffer is output. Before the
last sample of the half SEQ_IDX advances. On it the other half starts, with its length latched and the synchronised
square wave at its new level, or, where the other half is empty, the same half starts again and the square wave gets one
pulse. Nothing else changes (45_sequencer_and_sync_square.md R281, with R285). -/
def Obligations.TickFastFollowsItsRule : Prop :=
  ∀ s : State, (s.flags.enFast = false → exec .tickFast s = .next s) ∧
    ∀ k : Tier, s.flags.enFast = true → s.seq.fastMode = .fast k →
    let h := s.seq.half
    let v := (readCell s (.tb k h) (min s.seq.seqIdx.toNat (samplesPerCycle k - 1))).setWidth 12
    (s.seq.seqIdx.toNat + 1 < s.seq.seqLen.toNat →
      exec .tickFast s = .next { s with
        seq := { s.seq with seqIdx := s.seq.seqIdx + 1 }
        out := { s.out with dacOut := v }
        trace := s.trace ++ [.dac v] }) ∧
    (s.seq.seqLen.toNat ≤ s.seq.seqIdx.toNat + 1 → 0 < dutyCount s h.other k →
      exec .tickFast s = .next { s with
        seq := { s.seq with half := h.other, seqIdx := 0, seqLen := BitVec.ofNat 8 (dutyCount s h.other k) }
        out := { s.out with
          dacOut := v
          sqOut := if s.params.sync = 0 then s.out.sqOut else level h.other }
        trace := s.trace ++ (if s.params.sync = 0 then [.dac v]
          else [.dac v, .sq (level h.other) s.derived.sqDelay]) }) ∧
    (s.seq.seqLen.toNat ≤ s.seq.seqIdx.toNat + 1 → dutyCount s h.other k = 0 →
      exec .tickFast s = .next { s with
        seq := { s.seq with seqIdx := 0, seqLen := BitVec.ofNat 8 (max (dutyCount s h k) 1) }
        out := { s.out with dacOut := v }
        trace := s.trace ++ (if s.params.sync = 0 then [.dac v] else [.dac v, .sqPulse s.derived.sqDelay]) })

/-- TICK_DITHER. Disabled it changes nothing. Enabled, DACC gathers INC_FRAC modulo 1000, and the step of a half is
INC_BASE, plus one when DACC wraps; nothing else changes (44_phase_accumulator.md R252). -/
def Obligations.TickDitherSpreadsTheFraction : Prop :=
  ∀ s : State, (s.flags.enSlow = false ∨ s.flags.ditherOn = false → exec .tickDither s = .next s) ∧
    (s.flags.enSlow = true → s.flags.ditherOn = true →
    (∀ h, s.seq.dacc.get h < 1000) → (∀ h, s.seq.incFrac.get h < 1000) → ∃ t : State,
      exec .tickDither s = .next t ∧
      t = { s with seq := { s.seq with dacc := t.seq.dacc, increment := t.seq.increment } } ∧
      ∀ h, t.seq.dacc.get h = (s.seq.dacc.get h + s.seq.incFrac.get h) % 1000 ∧
        (t.seq.increment.get h).toNat = min ((s.seq.incBase.get h).toNat +
          (s.seq.dacc.get h + s.seq.incFrac.get h) / 1000) (2 ^ 32 - 1))

/-- TICK_USQ. Disabled it changes nothing. Enabled, without a carry only USQ_ACC advances; with one the level flips, or
at an extreme duty one pulse is output and the level stays (46_unsynced_square.md R316). -/
def Obligations.TickUsqTogglesAtCarry : Prop :=
  ∀ s : State, (s.flags.enUsq = false → exec .tickUsq s = .next s) ∧ (s.flags.enUsq = true →
    let inc := s.usq.inc.get s.usq.half
    let adv := { s.usq with acc := s.usq.acc + inc }
    (s.usq.acc.toNat + inc.toNat < 2 ^ 32 → exec .tickUsq s = .next { s with usq := adv }) ∧
    (2 ^ 32 ≤ s.usq.acc.toNat + inc.toNat → s.usq.ext = false → exec .tickUsq s = .next { s with
      usq := { adv with half := s.usq.half.other }
      out := { s.out with sqOut := level s.usq.half.other }
      trace := s.trace ++ [.sq (level s.usq.half.other) 0] }) ∧
    (2 ^ 32 ≤ s.usq.acc.toNat + inc.toNat → s.usq.ext = true → exec .tickUsq s = .next { s with
      usq := adv
      trace := s.trace ++ [.sqPulse 0] }))

/-- TICK_NOISE. Disabled it changes nothing. Enabled, the three filters take one step, the slow one on every 4th tick,
and the clamped mix is output; nothing else changes (47_noise.md R336, with R331, R332, R335). -/
def Obligations.TickNoiseFiltersAndOutputs : Prop :=
  ∀ (rnd : BitVec 32) (s : State), (s.flags.enNoise = false → exec (.tickNoise rnd) s = .next s) ∧
    (s.flags.enNoise = true → ∃ t : State,
    exec (.tickNoise rnd) s = .next t ∧
    t = { s with
      noise := { s.noise with
        nfFast := t.noise.nfFast, nfSlow := t.noise.nfSlow, nfAvg := t.noise.nfAvg, nfCnt := t.noise.nfCnt }
      out := { s.out with dacOut := t.out.dacOut }
      trace := s.trace ++ [.dac t.out.dacOut] } ∧
    (let new : Int := (rnd.setWidth 16).toInt * 65536
     let avg1 := s.noise.nfAvg + tdiv ((new - s.noise.nfAvg) * s.noise.cf.toNat) 10000
     t.noise.nfFast = s.noise.nfFast + tdiv (new - s.noise.nfFast) 5 ∧
     t.noise.nfAvg = avg1 + tdiv ((new - avg1) * s.noise.cf.toNat) 10000 ∧
     t.noise.nfCnt = s.noise.nfCnt + 1 ∧
     t.noise.nfSlow = (if s.noise.nfCnt = 3 then s.noise.nfSlow + tdiv ((new - s.noise.nfSlow) * s.noise.lfc.toNat) 100
       else s.noise.nfSlow) ∧
     (t.out.dacOut.toNat : Int) = clamp (tdiv ((tdiv (tdiv t.noise.nfAvg 16 * s.noise.mw.toNat) 100 +
       tdiv (tdiv t.noise.nfSlow 16 * s.noise.lbw.toNat) 70 +
       tdiv (tdiv (t.noise.nfFast - t.noise.nfAvg) 16 * s.noise.hbw.toNat) 1000) * s.params.nAmp.toNat) 6553600 + 2048)
         0 4095))

/-! ## Derivations -/

/-- The duty counts of every tier make a full cycle, and at a duty that is not extreme both are at least MINMAXDUTY: "It
holds by construction", which 43_downsampler_and_tier_buffers.md R214 marks as its own inference. -/
def Obligations.DutyCountsMakeACycle : Prop :=
  ∀ (c : Cfg) (d : Nat) (k : Tier), c.valid = true → d ≤ 1000000 →
    countFor c d .first k + countFor c d .second k = samplesPerCycle k ∧
    (d = 0 → countFor c d .first k = 0) ∧ (d = 1000000 → countFor c d .second k = 0) ∧
    (0 < d → d < 1000000 → ∀ h, c.minMaxDuty ≤ countFor c d h k ∧
      countFor c d h k ≤ samplesPerCycle k - c.minMaxDuty ∧ 0 < countFor c d h k)

/-- The clock's two conversions invert each other where neighbouring divisors give frequencies more than 1 microhertz
apart, which 40_clock_and_tier.md R122 marks as its own inference; the bound F_MIN..F_MAX it also asks for is not
needed. -/
def Obligations.FreqToTcInvertsTcToFreq : Prop :=
  ∀ (c : Cfg) (tc : Nat) (k : Tier), c.valid = true → c.tcMin ≤ tc → tc ≤ c.tcMax →
    tc * (tc + 1) * samplesPerCycle k ≤ c.fTimer * 1000000 → freqToTc c (tcToFreq c tc k) k = tc

/-- At 50 % duty the slow path reports exactly the target frequency, with the calibration factor of exact-frequency mode
and without it, where the step is not capped and F_SLOW keeps below 2^32 / 1000 times that factor: "`n.F_ACTUAL =
F_TARGET` exactly", which 44_phase_accumulator.md R244 marks as its own inference. Without the factor the bound is R244's
F_SLOW < 4294967; with it F_SLOW * CAL_DEN / CAL_NUM takes the place of F_SLOW. -/
def Obligations.SlowPathReportsTargetAtHalfDuty : Prop :=
  ∀ (c : Cfg) (f : Nat) (cal : Bool), c.valid = true → 0 < f →
    let cn := if cal then c.calNum else 1
    let cd := if cal then c.calDen else 1
    fSlow c * 1000 * cd ≤ 2 ^ 32 * cn →
    f * cn * 2 ^ 33 ≤ (2 ^ 32 - 1) * 1000 * (cd * fSlow c * 1000) →
    slowActual c cal (slowDerive c f 500000 cal (fSlow c)) = f

/-- SIN15 reverses its sign half a cycle later and is symmetric about the quarter: "`SIN15(a + 4096) = -SIN15(a)`", which
41_wavetable_builder.md R162 marks as its own inference. -/
def Obligations.SineHalfCycleSymmetry : Prop :=
  ∀ a : Int, sin15 (a + 4096) = -sin15 a ∧ sin15 (4096 - a) = sin15 a

/-- A composite with no arbitrary part is the plain sum of the zero-centred sine and triangle, clamped once
(41_wavetable_builder.md R185; "With `C_WA = 0`, `zcA = 0` exactly" is R188's own inference). -/
def Obligations.CompositeWithoutArbitraryIsPlainSum : Prop :=
  ∀ (s : State) (fm : FastMode) (h : Half) (i : Nat), s.params.shape.toNat = 3 → s.params.cWa = 0 → i < 4096 →
    ((buildWave s fm).get h).getD i 0 = BitVec.ofInt 16 (clamp (2048 + s.params.cBias.toInt +
      zs s.params h i s.params.cWs.toNat + zcT s.params (cyclePlace h i) s.params.cWt.toNat) 0 4095)

/-- The arbitrary source has 4096 cells and holds at the place of every position the value of that position, peak hold
or not (41_wavetable_builder.md R170, R171; the round trip of R187 rests on it). -/
def Obligations.ArbitrarySourcePassesThroughPositions : Prop :=
  ∀ (sharp : Nat) (fm : FastMode) (ps : List Position) (k : Nat) (p : Position),
    ps.length ≤ 4096 → ps[k]? = some p →
    (arbSrc sharp fm ps).length = 4096 ∧ (arbSrc sharp fm ps)[k * 4096 / ps.length]? = some (p.vout : Int)
end

