-- ==== Sys2Proof/Laws/Arith.lean ====
section
/-! SUPPORT. The arithmetic primitives, the per-half and per-tier containers, and the values a register can hold. -/

namespace Sys2Proof

@[simp] theorem Half.other_other (h : Half) : h.other.other = h := by cases h <;> rfl

@[simp] theorem Half.other_ne (h : Half) : h.other ≠ h := by cases h <;> decide

@[simp] theorem Half.ne_other (h : Half) : h ≠ h.other := by cases h <;> decide

theorem Half.eq_or_other (h k : Half) : k = h ∨ k = h.other := by cases h <;> cases k <;> decide

@[simp] theorem PerHalf.get_set_same {α : Type} (p : PerHalf α) (h : Half) (v : α) : (p.set h v).get h = v := by
  cases h <;> rfl

@[simp] theorem PerHalf.get_set_other {α : Type} (p : PerHalf α) (h : Half) (v : α) :
    (p.set h v).get h.other = p.get h.other := by
  cases h <;> rfl

@[simp] theorem PerHalf.get_other_set {α : Type} (p : PerHalf α) (h : Half) (v : α) :
    (p.set h.other v).get h = p.get h := by
  cases h <;> rfl

theorem PerHalf.get_set {α : Type} (p : PerHalf α) (h k : Half) (v : α) :
    (p.set h v).get k = if k = h then v else p.get k := by
  cases h <;> cases k <;> rfl

@[simp] theorem PerHalf.get_make {α : Type} (f : Half → α) (h : Half) : (PerHalf.make f).get h = f h := by
  cases h <;> rfl

theorem PerHalf.ext_get {α : Type} (p q : PerHalf α) (h : ∀ k, p.get k = q.get k) : p = q := by
  cases p; cases q
  have h0 := h .first
  have h1 := h .second
  simp only [PerHalf.get] at h0 h1
  rw [h0, h1]

theorem PerTier.get_set {α : Type} (p : PerTier α) (t k : Tier) (v : α) :
    (p.set t v).get k = if k = t then v else p.get k := by
  cases t <;> cases k <;> rfl

@[simp] theorem PerTier.get_make {α : Type} (f : Tier → α) (t : Tier) : (PerTier.make f).get t = f t := by
  cases t <;> rfl

namespace Machine

theorem samplesPerCycle_pos (t : Tier) : 0 < samplesPerCycle t := by cases t <;> decide

theorem samplesPerCycle_le (t : Tier) : samplesPerCycle t ≤ 160 := by cases t <;> decide

theorem samplesPerCycle_ge (t : Tier) : 16 ≤ samplesPerCycle t := by cases t <;> decide

/-- A clamped value lies in the range. -/
theorem clamp_mem (v l h : Int) (hlh : l ≤ h) : l ≤ clamp v l h ∧ clamp v l h ≤ h := by
  unfold clamp
  split
  · omega
  · split <;> omega

/-- A value in the range is not changed by the clamp. -/
theorem clamp_of_mem (v l h : Int) (hl : l ≤ v) (hh : v ≤ h) : clamp v l h = v := by
  unfold clamp
  split
  · omega
  · split <;> omega

theorem clampNat_mem (v l h : Nat) (hlh : l ≤ h) : l ≤ clampNat v l h ∧ clampNat v l h ≤ h := by
  unfold clampNat
  split
  · omega
  · split <;> omega

/-- The truncated quotient with the sign written out. -/
theorem tdiv_eq (a : Int) (b : Nat) : tdiv a b = a.tdiv b := by
  unfold tdiv
  rcases Int.lt_trichotomy a 0 with h | h | h
  · obtain ⟨n, rfl⟩ := Int.exists_eq_neg_ofNat (by omega : a ≤ 0)
    rw [Int.sign_eq_neg_one_of_neg h, Int.natAbs_neg, Int.natAbs_natCast, Int.neg_tdiv, ← Int.ofNat_tdiv]
    simp
  · subst h; simp
  · obtain ⟨n, rfl⟩ := Int.eq_ofNat_of_zero_le (by omega : 0 ≤ a)
    rw [Int.sign_eq_one_of_pos h, Int.natAbs_natCast, ← Int.ofNat_tdiv]
    simp

/-- A filter step with a factor of at most 1 stays between the accumulator and the sample (47_noise.md R332). -/
theorem filterStep_between (acc new : Int) (num den : Nat) (h : num ≤ den) :
    (min acc new ≤ filterStep acc new num den) ∧ (filterStep acc new num den ≤ max acc new) := by
  unfold filterStep
  rw [tdiv_eq]
  rcases Int.le_total 0 (new - acc) with hs | hs
  · obtain ⟨n, hn⟩ := Int.eq_ofNat_of_zero_le hs
    rw [hn, show ((n : Int) * (num : Int)) = ((n * num : Nat) : Int) by push_cast; rfl, ← Int.ofNat_tdiv]
    have : n * num / den ≤ n := by
      apply Nat.div_le_of_le_mul
      rw [Nat.mul_comm den n]
      exact Nat.mul_le_mul_left n h
    generalize n * num / den = q at *
    omega
  · obtain ⟨n, hn⟩ := Int.eq_ofNat_of_zero_le (by omega : 0 ≤ acc - new)
    rw [show new - acc = -(n : Int) by omega, Int.neg_mul, Int.neg_tdiv,
      show ((n : Int) * (num : Int)) = ((n * num : Nat) : Int) by push_cast; rfl, ← Int.ofNat_tdiv]
    have : n * num / den ≤ n := by
      apply Nat.div_le_of_le_mul
      rw [Nat.mul_comm den n]
      exact Nat.mul_le_mul_left n h
    generalize n * num / den = q at *
    omega

/-- A filter step keeps an accumulator in 32 bits (47_noise.md R332). -/
theorem filterStep_inRange (acc new : Int) (num den : Nat) (h : num ≤ den) (ha : inFilterRange acc)
    (hn : inFilterRange new) : inFilterRange (filterStep acc new num den) := by
  have := filterStep_between acc new num den h
  unfold inFilterRange at *
  omega

/-- A fraction of a difference lies between 0 and the difference. -/
theorem tdiv_mul_between (d c : Int) (b : Nat) (hc : 0 ≤ c) (hcb : c ≤ b) :
    min 0 d ≤ tdiv (d * c) b ∧ tdiv (d * c) b ≤ max 0 d := by
  have h := filterStep_between 0 d c.toNat b (by omega)
  unfold filterStep at h
  rw [show ((c.toNat : Nat) : Int) = c by omega] at h
  simpa using h

/-- A colour map within a range stays within it (47_noise.md R333). -/
theorem pwl_between (hi : Int) (m : ColorMap) (h0 : 0 ≤ hi) (hr : ColorMap.rises m = true)
    (ha : m.all (fun p => decide (0 ≤ p.2) && decide (p.2 ≤ hi)) = true) (c : Nat)
    (hc : ∀ p, m.head? = some p → p.1 ≤ c) : 0 ≤ pwl m c ∧ pwl m c ≤ hi := by
  induction m with
  | nil => simp [pwl, h0]
  | cons p m ih =>
    cases m with
    | nil => simpa [pwl] using ha
    | cons q rest =>
      have hp := hc p rfl
      simp only [ColorMap.rises, Bool.and_eq_true, decide_eq_true_eq] at hr
      simp only [List.all_cons, Bool.and_eq_true, decide_eq_true_eq] at ha
      unfold pwl
      split
      · have := tdiv_mul_between (q.2 - p.2) ((c : Int) - p.1) (q.1 - p.1) (by omega) (by omega)
        omega
      · refine ih hr.2 (by simpa using ha.2) fun p' h' => ?_
        simp only [List.head?_cons, Option.some.injEq] at h'
        subst h'
        omega

/-- A random sample is in range (47_noise.md R331). -/
theorem noiseSample_inRange (rnd : BitVec 32) : inFilterRange (noiseSample rnd) := by
  have h1 := BitVec.le_toInt (rnd.extractLsb' 0 16)
  have h2 := BitVec.toInt_lt (x := rnd.extractLsb' 0 16)
  unfold noiseSample inFilterRange
  omega

/-- A value that fits is what the register holds (log 4). -/
theorem fit_of_lt (r : WideReg) (w v : Nat) (h : v < 2 ^ w) : (fit r w v).toNat = v := by
  unfold fit
  rw [if_pos h, BitVec.toNat_ofNat, Nat.mod_eq_of_lt h]

/-- A number in 0..2^48-1 stored in a parameter register reads back unsigned. -/
theorem toNat_ofInt_48 (v : Int) (h0 : 0 ≤ v) (h1 : v < 2 ^ 48) : ((BitVec.ofInt 48 v).toNat : Int) = v := by
  rw [BitVec.toNat_ofInt]
  omega

/-- A number in -2^47..2^47-1 stored in a parameter register reads back signed. -/
theorem toInt_ofInt_48 (v : Int) (h0 : -2 ^ 47 ≤ v) (h1 : v < 2 ^ 47) : (BitVec.ofInt 48 v).toInt = v := by
  rw [BitVec.toInt_ofInt, Int.bmod_def]
  split <;> omega

/-- `Cfg.valid` gives the constraints on the limits of the frequency registers (00_scope.md R9). -/
theorem Cfg.valid_limits (c : Cfg) (h : c.valid = true) :
    1 ≤ c.fMin ∧ c.fMin ≤ c.fMax ∧ c.fMax < 2 ^ 48 ∧ 1 ≤ c.sqFMin ∧ c.sqFMin ≤ c.sqFMax ∧ c.sqFMax < 2 ^ 48 := by
  simp only [Cfg.valid, Cfg.validClock, Bool.and_eq_true, decide_eq_true_eq] at h
  omega

/-- `Cfg.valid` bounds MINMAXDUTY (00_scope.md R9). -/
theorem Cfg.valid_minMaxDuty (c : Cfg) (h : c.valid = true) : 1 ≤ c.minMaxDuty ∧ c.minMaxDuty ≤ 8 := by
  simp only [Cfg.valid, Cfg.validClock, Bool.and_eq_true, decide_eq_true_eq] at h
  omega

/-- `Cfg.valid` makes the timer numbers positive (00_scope.md R9). -/
theorem Cfg.valid_timer (c : Cfg) (h : c.valid = true) :
    0 < c.fTimer ∧ 1 ≤ c.tcSlow ∧ c.fTimer % c.tcSlow = 0 ∧ 1 ≤ c.tcMin ∧ c.tcMin ≤ c.tcMax ∧ c.tcMax < 2 ^ 32 := by
  simp only [Cfg.valid, Cfg.validClock, Bool.and_eq_true, decide_eq_true_eq] at h
  omega

/-- The range of every register is one its 48 bits can hold (10_state.md R21, R29). -/
theorem regRange_ok (c : Cfg) (hc : c.valid = true) (r : Reg) :
    regLo c r ≤ regHi c r ∧ (regSigned r = true → -2 ^ 47 ≤ regLo c r ∧ regHi c r < 2 ^ 47) ∧
      (regSigned r = false → 0 ≤ regLo c r ∧ regHi c r < 2 ^ 48) := by
  have := Cfg.valid_limits c hc
  cases r <;> simp [regLo, regHi, regSigned] <;> omega

/-- (A, B) names a register exactly when B is below the size of bank A (10_state.md R22 to R28). -/
theorem regAt_isSome (a b : Nibble) : (regAt a b).isSome = decide (b.toNat < bankSize a.toNat) := by
  revert a b
  decide +kernel

/-- No register lies above bank 6 (10_state.md R28). -/
theorem regAt_bank_le (a b : Nibble) (r : Reg) (h : regAt a b = some r) : a.toNat ≤ 6 := by
  have hs := regAt_isSome a b
  rw [h] at hs
  have hb : b.toNat < bankSize a.toNat := by simpa using hs
  by_contra hn
  have : bankSize a.toNat = 0 := by
    unfold bankSize
    split
    all_goals omega
  omega

@[simp] theorem getReg_setReg_same (p : Params) (r : Reg) (v : Imm) : getReg (setReg p r v) r = v := by cases r <;> rfl

/-- A register write changes no other register. -/
theorem getReg_setReg_other (p : Params) (r q : Reg) (v : Imm) (h : q ≠ r) : getReg (setReg p r v) q = getReg p q := by
  cases r <;> cases q <;> first | rfl | exact absurd rfl h

/-- A clamped write puts a register in its range (10_state.md R29). -/
theorem regValue_writeReg_same (s : State) (hc : s.cfg.valid = true) (r : Reg) (v : Int) :
    regValue (writeReg r v s).params r = clamp v (regLo s.cfg r) (regHi s.cfg r) := by
  have hr := regRange_ok s.cfg hc r
  have hm := clamp_mem v _ _ hr.1
  simp only [regValue, writeReg, getReg_setReg_same]
  split
  · rename_i h
    have := hr.2.1 h
    exact toInt_ofInt_48 _ (by omega) (by omega)
  · rename_i h
    have := hr.2.2 (by simpa using h)
    exact toNat_ofInt_48 _ (by omega) (by omega)

/-- A clamped write keeps every register in its range (10_state.md R29). -/
theorem registersInRange_writeReg (s : State) (hc : s.cfg.valid = true) (r : Reg) (v : Int) (h : RegistersInRange s) :
    RegistersInRange (writeReg r v s) := by
  intro q
  by_cases hq : q = r
  · subst hq
    rw [regValue_writeReg_same s hc]
    exact clamp_mem v _ _ (regRange_ok s.cfg hc q).1
  · have : regValue (writeReg r v s).params q = regValue s.params q := by
      simp only [regValue, writeReg, getReg_setReg_other _ _ _ _ hq]
    rw [this]
    exact h q

/-- A level cell holds its clamped level (41_wavetable_builder.md R185). -/
theorem levelCell_toInt (v : Int) : (levelCell v).toInt = clamp v 0 ampMax := by
  have := clamp_mem v 0 ampMax (by decide)
  unfold levelCell
  simp only [ampMax] at *
  rw [BitVec.toInt_ofInt, Int.bmod_def]
  split <;> omega

/-- A level cell is a sample value (20_memory.md R64). -/
theorem levelCell_toNat_le (v : Int) : (levelCell v).toNat ≤ 4095 := by
  have := clamp_mem v 0 ampMax (by decide)
  unfold levelCell
  simp only [ampMax] at *
  rw [BitVec.toNat_ofInt]
  omega

end Machine

end Sys2Proof
end

