-- ==== Sys2Proof/Laws/Encoding.lean ====
section
/-! SUPPORT. The four fields of a stimulus word (30_encoding.md R91): a word is its fields, and each field of a made word is
what was put there. -/

namespace Sys2Proof

@[simp] theorem Word.op_make (o : BitVec 8) (a b : Nibble) (i : Imm) : Word.op (Word.make o a b i) = o := by
  unfold Word.op Word.make
  ext k hk
  simp
  grind

@[simp] theorem Word.a_make (o : BitVec 8) (a b : Nibble) (i : Imm) : Word.a (Word.make o a b i) = a := by
  unfold Word.a Word.make
  ext k hk
  simp
  grind

@[simp] theorem Word.b_make (o : BitVec 8) (a b : Nibble) (i : Imm) : Word.b (Word.make o a b i) = b := by
  unfold Word.b Word.make
  ext k hk
  simp
  grind

@[simp] theorem Word.imm_make (o : BitVec 8) (a b : Nibble) (i : Imm) : Word.imm (Word.make o a b i) = i := by
  unfold Word.imm Word.make
  ext k hk
  simp
  grind

/-- A word is made of its four fields. -/
theorem Word.make_fields (w : Word) : Word.make (Word.op w) (Word.a w) (Word.b w) (Word.imm w) = w := by
  unfold Word.imm Word.make Word.op Word.a Word.b
  ext k hk
  simp
  grind

end Sys2Proof
end

