-- ==== Sys2Proof/Laws/State.lean ====
section
/-! SUPPORT. What each named update does to each field of the state: one lemma per field, true by unfolding. -/

namespace Sys2Proof.Machine

/-! ### `refuse` -/

@[simp] theorem refuse_params (s : State) : (refuse s).params = s.params := rfl
@[simp] theorem refuse_seq (s : State) : (refuse s).seq = s.seq := rfl
@[simp] theorem refuse_flags_dutyNot50 (s : State) : (refuse s).flags.dutyNot50 = s.flags.dutyNot50 := rfl
@[simp] theorem refuse_flags_extreme (s : State) : (refuse s).flags.extreme = s.flags.extreme := rfl
@[simp] theorem refuse_flags_ditherOn (s : State) : (refuse s).flags.ditherOn = s.flags.ditherOn := rfl
@[simp] theorem refuse_flags_pend (s : State) : (refuse s).flags.pend = s.flags.pend := rfl
@[simp] theorem refuse_flags_pendHalf (s : State) : (refuse s).flags.pendHalf = s.flags.pendHalf := rfl
@[simp] theorem refuse_flags_uploadTrunc (s : State) : (refuse s).flags.uploadTrunc = s.flags.uploadTrunc := rfl
@[simp] theorem refuse_flags_badCmd (s : State) : (refuse s).flags.badCmd = true := rfl
@[simp] theorem refuse_flags_enSlow (s : State) : (refuse s).flags.enSlow = s.flags.enSlow := rfl
@[simp] theorem refuse_flags_enFast (s : State) : (refuse s).flags.enFast = s.flags.enFast := rfl
@[simp] theorem refuse_flags_enNoise (s : State) : (refuse s).flags.enNoise = s.flags.enNoise := rfl
@[simp] theorem refuse_flags_enUsq (s : State) : (refuse s).flags.enUsq = s.flags.enUsq := rfl
@[simp] theorem refuse_flags_enPwm (s : State) : (refuse s).flags.enPwm = s.flags.enPwm := rfl
@[simp] theorem refuse_flags_run (s : State) : (refuse s).flags.run = s.flags.run := rfl
@[simp] theorem refuse_flags_priorSync (s : State) : (refuse s).flags.priorSync = s.flags.priorSync := rfl
@[simp] theorem refuse_derived (s : State) : (refuse s).derived = s.derived := rfl
@[simp] theorem refuse_noise (s : State) : (refuse s).noise = s.noise := rfl
@[simp] theorem refuse_usq (s : State) : (refuse s).usq = s.usq := rfl
@[simp] theorem refuse_out (s : State) : (refuse s).out = s.out := rfl
@[simp] theorem refuse_tables (s : State) : (refuse s).tables = s.tables := rfl
@[simp] theorem refuse_waypoints (s : State) : (refuse s).waypoints = s.waypoints := rfl
@[simp] theorem refuse_shadow (s : State) : (refuse s).shadow = s.shadow := rfl
@[simp] theorem refuse_trace (s : State) : (refuse s).trace = s.trace := rfl
@[simp] theorem refuse_input (s : State) : (refuse s).input = s.input := rfl
@[simp] theorem refuse_cfg (s : State) : (refuse s).cfg = s.cfg := rfl

/-! ### `truncateUpload` -/

@[simp] theorem truncateUpload_params (s : State) : (truncateUpload s).params = s.params := rfl
@[simp] theorem truncateUpload_seq (s : State) : (truncateUpload s).seq = s.seq := rfl
@[simp] theorem truncateUpload_flags_dutyNot50 (s : State) :
    (truncateUpload s).flags.dutyNot50 =
      s.flags.dutyNot50 := rfl
@[simp] theorem truncateUpload_flags_extreme (s : State) : (truncateUpload s).flags.extreme = s.flags.extreme := rfl
@[simp] theorem truncateUpload_flags_ditherOn (s : State) : (truncateUpload s).flags.ditherOn = s.flags.ditherOn := rfl
@[simp] theorem truncateUpload_flags_pend (s : State) : (truncateUpload s).flags.pend = s.flags.pend := rfl
@[simp] theorem truncateUpload_flags_pendHalf (s : State) : (truncateUpload s).flags.pendHalf = s.flags.pendHalf := rfl
@[simp] theorem truncateUpload_flags_uploadTrunc (s : State) : (truncateUpload s).flags.uploadTrunc = true := rfl
@[simp] theorem truncateUpload_flags_badCmd (s : State) : (truncateUpload s).flags.badCmd = s.flags.badCmd := rfl
@[simp] theorem truncateUpload_flags_enSlow (s : State) : (truncateUpload s).flags.enSlow = s.flags.enSlow := rfl
@[simp] theorem truncateUpload_flags_enFast (s : State) : (truncateUpload s).flags.enFast = s.flags.enFast := rfl
@[simp] theorem truncateUpload_flags_enNoise (s : State) : (truncateUpload s).flags.enNoise = s.flags.enNoise := rfl
@[simp] theorem truncateUpload_flags_enUsq (s : State) : (truncateUpload s).flags.enUsq = s.flags.enUsq := rfl
@[simp] theorem truncateUpload_flags_enPwm (s : State) : (truncateUpload s).flags.enPwm = s.flags.enPwm := rfl
@[simp] theorem truncateUpload_flags_run (s : State) : (truncateUpload s).flags.run = s.flags.run := rfl
@[simp] theorem truncateUpload_flags_priorSync (s : State) :
    (truncateUpload s).flags.priorSync =
      s.flags.priorSync := rfl
@[simp] theorem truncateUpload_derived (s : State) : (truncateUpload s).derived = s.derived := rfl
@[simp] theorem truncateUpload_noise (s : State) : (truncateUpload s).noise = s.noise := rfl
@[simp] theorem truncateUpload_usq (s : State) : (truncateUpload s).usq = s.usq := rfl
@[simp] theorem truncateUpload_out (s : State) : (truncateUpload s).out = s.out := rfl
@[simp] theorem truncateUpload_tables (s : State) : (truncateUpload s).tables = s.tables := rfl
@[simp] theorem truncateUpload_waypoints (s : State) : (truncateUpload s).waypoints = s.waypoints := rfl
@[simp] theorem truncateUpload_shadow (s : State) : (truncateUpload s).shadow = s.shadow := rfl
@[simp] theorem truncateUpload_trace (s : State) : (truncateUpload s).trace = s.trace := rfl
@[simp] theorem truncateUpload_input (s : State) : (truncateUpload s).input = s.input := rfl
@[simp] theorem truncateUpload_cfg (s : State) : (truncateUpload s).cfg = s.cfg := rfl

/-! ### `writeReg` -/

@[simp] theorem writeReg_params (r : Reg) (v : Int) (s : State) :
    (writeReg r v s).params =
      setReg s.params r (BitVec.ofInt 48 (clamp v (regLo s.cfg r) (regHi s.cfg r))) := rfl
@[simp] theorem writeReg_seq (r : Reg) (v : Int) (s : State) : (writeReg r v s).seq = s.seq := rfl
@[simp] theorem writeReg_flags (r : Reg) (v : Int) (s : State) : (writeReg r v s).flags = s.flags := rfl
@[simp] theorem writeReg_derived (r : Reg) (v : Int) (s : State) : (writeReg r v s).derived = s.derived := rfl
@[simp] theorem writeReg_noise (r : Reg) (v : Int) (s : State) : (writeReg r v s).noise = s.noise := rfl
@[simp] theorem writeReg_usq (r : Reg) (v : Int) (s : State) : (writeReg r v s).usq = s.usq := rfl
@[simp] theorem writeReg_out (r : Reg) (v : Int) (s : State) : (writeReg r v s).out = s.out := rfl
@[simp] theorem writeReg_tables (r : Reg) (v : Int) (s : State) : (writeReg r v s).tables = s.tables := rfl
@[simp] theorem writeReg_waypoints (r : Reg) (v : Int) (s : State) : (writeReg r v s).waypoints = s.waypoints := rfl
@[simp] theorem writeReg_shadow (r : Reg) (v : Int) (s : State) : (writeReg r v s).shadow = s.shadow := rfl
@[simp] theorem writeReg_trace (r : Reg) (v : Int) (s : State) : (writeReg r v s).trace = s.trace := rfl
@[simp] theorem writeReg_input (r : Reg) (v : Int) (s : State) : (writeReg r v s).input = s.input := rfl
@[simp] theorem writeReg_cfg (r : Reg) (v : Int) (s : State) : (writeReg r v s).cfg = s.cfg := rfl

/-! ### `writeWaypoint` -/

@[simp] theorem writeWaypoint_params (i : Nat) (b : Bool) (v : Sample) (s : State) :
    (writeWaypoint i b v s).params =
      s.params := rfl
@[simp] theorem writeWaypoint_seq (i : Nat) (b : Bool) (v : Sample) (s : State) :
    (writeWaypoint i b v s).seq =
      s.seq := rfl
@[simp] theorem writeWaypoint_flags (i : Nat) (b : Bool) (v : Sample) (s : State) :
    (writeWaypoint i b v s).flags =
      s.flags := rfl
@[simp] theorem writeWaypoint_derived (i : Nat) (b : Bool) (v : Sample) (s : State) :
    (writeWaypoint i b v s).derived =
      s.derived := rfl
@[simp] theorem writeWaypoint_noise (i : Nat) (b : Bool) (v : Sample) (s : State) :
    (writeWaypoint i b v s).noise =
      s.noise := rfl
@[simp] theorem writeWaypoint_usq (i : Nat) (b : Bool) (v : Sample) (s : State) :
    (writeWaypoint i b v s).usq =
      s.usq := rfl
@[simp] theorem writeWaypoint_out (i : Nat) (b : Bool) (v : Sample) (s : State) :
    (writeWaypoint i b v s).out =
      s.out := rfl
@[simp] theorem writeWaypoint_tables (i : Nat) (b : Bool) (v : Sample) (s : State) :
    (writeWaypoint i b v s).tables =
      s.tables := rfl
@[simp] theorem writeWaypoint_waypoints_cells (i : Nat) (b : Bool) (v : Sample) (s : State) :
    (writeWaypoint i b v s).waypoints.cells =
      Memory.write s.waypoints.cells i ((0#3) ++ BitVec.ofBool b ++ v) := rfl
@[simp] theorem writeWaypoint_waypoints_count (i : Nat) (b : Bool) (v : Sample) (s : State) :
    (writeWaypoint i b v s).waypoints.count =
      s.waypoints.count := rfl
@[simp] theorem writeWaypoint_shadow (i : Nat) (b : Bool) (v : Sample) (s : State) :
    (writeWaypoint i b v s).shadow =
      s.shadow := rfl
@[simp] theorem writeWaypoint_trace (i : Nat) (b : Bool) (v : Sample) (s : State) :
    (writeWaypoint i b v s).trace =
      s.trace := rfl
@[simp] theorem writeWaypoint_input (i : Nat) (b : Bool) (v : Sample) (s : State) :
    (writeWaypoint i b v s).input =
      s.input := rfl
@[simp] theorem writeWaypoint_cfg (i : Nat) (b : Bool) (v : Sample) (s : State) :
    (writeWaypoint i b v s).cfg =
      s.cfg := rfl

/-! ### `setWpCount` -/

@[simp] theorem setWpCount_params (n : Nat) (s : State) : (setWpCount n s).params = s.params := rfl
@[simp] theorem setWpCount_seq (n : Nat) (s : State) : (setWpCount n s).seq = s.seq := rfl
@[simp] theorem setWpCount_flags (n : Nat) (s : State) : (setWpCount n s).flags = s.flags := rfl
@[simp] theorem setWpCount_derived (n : Nat) (s : State) : (setWpCount n s).derived = s.derived := rfl
@[simp] theorem setWpCount_noise (n : Nat) (s : State) : (setWpCount n s).noise = s.noise := rfl
@[simp] theorem setWpCount_usq (n : Nat) (s : State) : (setWpCount n s).usq = s.usq := rfl
@[simp] theorem setWpCount_out (n : Nat) (s : State) : (setWpCount n s).out = s.out := rfl
@[simp] theorem setWpCount_tables (n : Nat) (s : State) : (setWpCount n s).tables = s.tables := rfl
@[simp] theorem setWpCount_waypoints_cells (n : Nat) (s : State) :
    (setWpCount n s).waypoints.cells =
      s.waypoints.cells := rfl
@[simp] theorem setWpCount_waypoints_count (n : Nat) (s : State) :
    (setWpCount n s).waypoints.count =
      BitVec.ofNat 13 n := rfl
@[simp] theorem setWpCount_shadow (n : Nat) (s : State) : (setWpCount n s).shadow = s.shadow := rfl
@[simp] theorem setWpCount_trace (n : Nat) (s : State) : (setWpCount n s).trace = s.trace := rfl
@[simp] theorem setWpCount_input (n : Nat) (s : State) : (setWpCount n s).input = s.input := rfl
@[simp] theorem setWpCount_cfg (n : Nat) (s : State) : (setWpCount n s).cfg = s.cfg := rfl

/-! ### `emit` -/

@[simp] theorem emit_params (e : Event) (s : State) : (emit e s).params = s.params := rfl
@[simp] theorem emit_seq (e : Event) (s : State) : (emit e s).seq = s.seq := rfl
@[simp] theorem emit_flags (e : Event) (s : State) : (emit e s).flags = s.flags := rfl
@[simp] theorem emit_derived (e : Event) (s : State) : (emit e s).derived = s.derived := rfl
@[simp] theorem emit_noise (e : Event) (s : State) : (emit e s).noise = s.noise := rfl
@[simp] theorem emit_usq (e : Event) (s : State) : (emit e s).usq = s.usq := rfl
@[simp] theorem emit_out (e : Event) (s : State) : (emit e s).out = s.out := rfl
@[simp] theorem emit_tables (e : Event) (s : State) : (emit e s).tables = s.tables := rfl
@[simp] theorem emit_waypoints (e : Event) (s : State) : (emit e s).waypoints = s.waypoints := rfl
@[simp] theorem emit_shadow (e : Event) (s : State) : (emit e s).shadow = s.shadow := rfl
@[simp] theorem emit_trace (e : Event) (s : State) : (emit e s).trace = s.trace ++ [e] := rfl
@[simp] theorem emit_input (e : Event) (s : State) : (emit e s).input = s.input := rfl
@[simp] theorem emit_cfg (e : Event) (s : State) : (emit e s).cfg = s.cfg := rfl

/-! ### `writeDac` -/

@[simp] theorem writeDac_params (v : Sample) (s : State) : (writeDac v s).params = s.params := rfl
@[simp] theorem writeDac_seq (v : Sample) (s : State) : (writeDac v s).seq = s.seq := rfl
@[simp] theorem writeDac_flags (v : Sample) (s : State) : (writeDac v s).flags = s.flags := rfl
@[simp] theorem writeDac_derived (v : Sample) (s : State) : (writeDac v s).derived = s.derived := rfl
@[simp] theorem writeDac_noise (v : Sample) (s : State) : (writeDac v s).noise = s.noise := rfl
@[simp] theorem writeDac_usq (v : Sample) (s : State) : (writeDac v s).usq = s.usq := rfl
@[simp] theorem writeDac_out_dacOut (v : Sample) (s : State) : (writeDac v s).out.dacOut = v := rfl
@[simp] theorem writeDac_out_sqOut (v : Sample) (s : State) : (writeDac v s).out.sqOut = s.out.sqOut := rfl
@[simp] theorem writeDac_tables (v : Sample) (s : State) : (writeDac v s).tables = s.tables := rfl
@[simp] theorem writeDac_waypoints (v : Sample) (s : State) : (writeDac v s).waypoints = s.waypoints := rfl
@[simp] theorem writeDac_shadow (v : Sample) (s : State) : (writeDac v s).shadow = s.shadow := rfl
@[simp] theorem writeDac_trace (v : Sample) (s : State) : (writeDac v s).trace = s.trace ++ [.dac v] := rfl
@[simp] theorem writeDac_input (v : Sample) (s : State) : (writeDac v s).input = s.input := rfl
@[simp] theorem writeDac_cfg (v : Sample) (s : State) : (writeDac v s).cfg = s.cfg := rfl

/-! ### `driveSq` -/

@[simp] theorem driveSq_params (b : Bool) (d : BitVec 32) (s : State) : (driveSq b d s).params = s.params := rfl
@[simp] theorem driveSq_seq (b : Bool) (d : BitVec 32) (s : State) : (driveSq b d s).seq = s.seq := rfl
@[simp] theorem driveSq_flags (b : Bool) (d : BitVec 32) (s : State) : (driveSq b d s).flags = s.flags := rfl
@[simp] theorem driveSq_derived (b : Bool) (d : BitVec 32) (s : State) : (driveSq b d s).derived = s.derived := rfl
@[simp] theorem driveSq_noise (b : Bool) (d : BitVec 32) (s : State) : (driveSq b d s).noise = s.noise := rfl
@[simp] theorem driveSq_usq (b : Bool) (d : BitVec 32) (s : State) : (driveSq b d s).usq = s.usq := rfl
@[simp] theorem driveSq_out_dacOut (b : Bool) (d : BitVec 32) (s : State) :
    (driveSq b d s).out.dacOut =
      s.out.dacOut := rfl
@[simp] theorem driveSq_out_sqOut (b : Bool) (d : BitVec 32) (s : State) : (driveSq b d s).out.sqOut = b := rfl
@[simp] theorem driveSq_tables (b : Bool) (d : BitVec 32) (s : State) : (driveSq b d s).tables = s.tables := rfl
@[simp] theorem driveSq_waypoints (b : Bool) (d : BitVec 32) (s : State) :
    (driveSq b d s).waypoints =
      s.waypoints := rfl
@[simp] theorem driveSq_shadow (b : Bool) (d : BitVec 32) (s : State) : (driveSq b d s).shadow = s.shadow := rfl
@[simp] theorem driveSq_trace (b : Bool) (d : BitVec 32) (s : State) :
    (driveSq b d s).trace =
      s.trace ++ [.sq b d] := rfl
@[simp] theorem driveSq_input (b : Bool) (d : BitVec 32) (s : State) : (driveSq b d s).input = s.input := rfl
@[simp] theorem driveSq_cfg (b : Bool) (d : BitVec 32) (s : State) : (driveSq b d s).cfg = s.cfg := rfl

/-! ### `setHalf` -/

@[simp] theorem setHalf_params (h : Half) (s : State) : (setHalf h s).params = s.params := rfl
@[simp] theorem setHalf_seq_fastMode (h : Half) (s : State) : (setHalf h s).seq.fastMode = s.seq.fastMode := rfl
@[simp] theorem setHalf_seq_half (h : Half) (s : State) : (setHalf h s).seq.half = h := rfl
@[simp] theorem setHalf_seq_waveBit (h : Half) (s : State) : (setHalf h s).seq.waveBit = s.seq.waveBit := rfl
@[simp] theorem setHalf_seq_increment (h : Half) (s : State) : (setHalf h s).seq.increment = s.seq.increment := rfl
@[simp] theorem setHalf_seq_incBase (h : Half) (s : State) : (setHalf h s).seq.incBase = s.seq.incBase := rfl
@[simp] theorem setHalf_seq_incFrac (h : Half) (s : State) : (setHalf h s).seq.incFrac = s.seq.incFrac := rfl
@[simp] theorem setHalf_seq_ratio (h : Half) (s : State) : (setHalf h s).seq.ratio = s.seq.ratio := rfl
@[simp] theorem setHalf_seq_dacc (h : Half) (s : State) : (setHalf h s).seq.dacc = s.seq.dacc := rfl
@[simp] theorem setHalf_seq_seqIdx (h : Half) (s : State) : (setHalf h s).seq.seqIdx = s.seq.seqIdx := rfl
@[simp] theorem setHalf_seq_seqLen (h : Half) (s : State) : (setHalf h s).seq.seqLen = s.seq.seqLen := rfl
@[simp] theorem setHalf_flags (h : Half) (s : State) : (setHalf h s).flags = s.flags := rfl
@[simp] theorem setHalf_derived (h : Half) (s : State) : (setHalf h s).derived = s.derived := rfl
@[simp] theorem setHalf_noise (h : Half) (s : State) : (setHalf h s).noise = s.noise := rfl
@[simp] theorem setHalf_usq (h : Half) (s : State) : (setHalf h s).usq = s.usq := rfl
@[simp] theorem setHalf_out (h : Half) (s : State) : (setHalf h s).out = s.out := rfl
@[simp] theorem setHalf_tables (h : Half) (s : State) : (setHalf h s).tables = s.tables := rfl
@[simp] theorem setHalf_waypoints (h : Half) (s : State) : (setHalf h s).waypoints = s.waypoints := rfl
@[simp] theorem setHalf_shadow (h : Half) (s : State) : (setHalf h s).shadow = s.shadow := rfl
@[simp] theorem setHalf_trace (h : Half) (s : State) : (setHalf h s).trace = s.trace := rfl
@[simp] theorem setHalf_input (h : Half) (s : State) : (setHalf h s).input = s.input := rfl
@[simp] theorem setHalf_cfg (h : Half) (s : State) : (setHalf h s).cfg = s.cfg := rfl

/-! ### `setPriorSync` -/

@[simp] theorem setPriorSync_params (b : Bool) (s : State) : (setPriorSync b s).params = s.params := rfl
@[simp] theorem setPriorSync_seq (b : Bool) (s : State) : (setPriorSync b s).seq = s.seq := rfl
@[simp] theorem setPriorSync_flags_dutyNot50 (b : Bool) (s : State) :
    (setPriorSync b s).flags.dutyNot50 =
      s.flags.dutyNot50 := rfl
@[simp] theorem setPriorSync_flags_extreme (b : Bool) (s : State) :
    (setPriorSync b s).flags.extreme =
      s.flags.extreme := rfl
@[simp] theorem setPriorSync_flags_ditherOn (b : Bool) (s : State) :
    (setPriorSync b s).flags.ditherOn =
      s.flags.ditherOn := rfl
@[simp] theorem setPriorSync_flags_pend (b : Bool) (s : State) : (setPriorSync b s).flags.pend = s.flags.pend := rfl
@[simp] theorem setPriorSync_flags_pendHalf (b : Bool) (s : State) :
    (setPriorSync b s).flags.pendHalf =
      s.flags.pendHalf := rfl
@[simp] theorem setPriorSync_flags_uploadTrunc (b : Bool) (s : State) :
    (setPriorSync b s).flags.uploadTrunc =
      s.flags.uploadTrunc := rfl
@[simp] theorem setPriorSync_flags_badCmd (b : Bool) (s : State) :
    (setPriorSync b s).flags.badCmd =
      s.flags.badCmd := rfl
@[simp] theorem setPriorSync_flags_enSlow (b : Bool) (s : State) :
    (setPriorSync b s).flags.enSlow =
      s.flags.enSlow := rfl
@[simp] theorem setPriorSync_flags_enFast (b : Bool) (s : State) :
    (setPriorSync b s).flags.enFast =
      s.flags.enFast := rfl
@[simp] theorem setPriorSync_flags_enNoise (b : Bool) (s : State) :
    (setPriorSync b s).flags.enNoise =
      s.flags.enNoise := rfl
@[simp] theorem setPriorSync_flags_enUsq (b : Bool) (s : State) : (setPriorSync b s).flags.enUsq = s.flags.enUsq := rfl
@[simp] theorem setPriorSync_flags_enPwm (b : Bool) (s : State) : (setPriorSync b s).flags.enPwm = s.flags.enPwm := rfl
@[simp] theorem setPriorSync_flags_run (b : Bool) (s : State) : (setPriorSync b s).flags.run = s.flags.run := rfl
@[simp] theorem setPriorSync_flags_priorSync (b : Bool) (s : State) : (setPriorSync b s).flags.priorSync = b := rfl
@[simp] theorem setPriorSync_derived (b : Bool) (s : State) : (setPriorSync b s).derived = s.derived := rfl
@[simp] theorem setPriorSync_noise (b : Bool) (s : State) : (setPriorSync b s).noise = s.noise := rfl
@[simp] theorem setPriorSync_usq (b : Bool) (s : State) : (setPriorSync b s).usq = s.usq := rfl
@[simp] theorem setPriorSync_out (b : Bool) (s : State) : (setPriorSync b s).out = s.out := rfl
@[simp] theorem setPriorSync_tables (b : Bool) (s : State) : (setPriorSync b s).tables = s.tables := rfl
@[simp] theorem setPriorSync_waypoints (b : Bool) (s : State) : (setPriorSync b s).waypoints = s.waypoints := rfl
@[simp] theorem setPriorSync_shadow (b : Bool) (s : State) : (setPriorSync b s).shadow = s.shadow := rfl
@[simp] theorem setPriorSync_trace (b : Bool) (s : State) : (setPriorSync b s).trace = s.trace := rfl
@[simp] theorem setPriorSync_input (b : Bool) (s : State) : (setPriorSync b s).input = s.input := rfl
@[simp] theorem setPriorSync_cfg (b : Bool) (s : State) : (setPriorSync b s).cfg = s.cfg := rfl

/-! ### `setWaveBit` -/

@[simp] theorem setWaveBit_params (v : BitVec 32) (s : State) : (setWaveBit v s).params = s.params := rfl
@[simp] theorem setWaveBit_seq_fastMode (v : BitVec 32) (s : State) :
    (setWaveBit v s).seq.fastMode =
      s.seq.fastMode := rfl
@[simp] theorem setWaveBit_seq_half (v : BitVec 32) (s : State) : (setWaveBit v s).seq.half = s.seq.half := rfl
@[simp] theorem setWaveBit_seq_waveBit (v : BitVec 32) (s : State) : (setWaveBit v s).seq.waveBit = v := rfl
@[simp] theorem setWaveBit_seq_increment (v : BitVec 32) (s : State) :
    (setWaveBit v s).seq.increment =
      s.seq.increment := rfl
@[simp] theorem setWaveBit_seq_incBase (v : BitVec 32) (s : State) : (setWaveBit v s).seq.incBase = s.seq.incBase := rfl
@[simp] theorem setWaveBit_seq_incFrac (v : BitVec 32) (s : State) : (setWaveBit v s).seq.incFrac = s.seq.incFrac := rfl
@[simp] theorem setWaveBit_seq_ratio (v : BitVec 32) (s : State) : (setWaveBit v s).seq.ratio = s.seq.ratio := rfl
@[simp] theorem setWaveBit_seq_dacc (v : BitVec 32) (s : State) : (setWaveBit v s).seq.dacc = s.seq.dacc := rfl
@[simp] theorem setWaveBit_seq_seqIdx (v : BitVec 32) (s : State) : (setWaveBit v s).seq.seqIdx = s.seq.seqIdx := rfl
@[simp] theorem setWaveBit_seq_seqLen (v : BitVec 32) (s : State) : (setWaveBit v s).seq.seqLen = s.seq.seqLen := rfl
@[simp] theorem setWaveBit_flags (v : BitVec 32) (s : State) : (setWaveBit v s).flags = s.flags := rfl
@[simp] theorem setWaveBit_derived (v : BitVec 32) (s : State) : (setWaveBit v s).derived = s.derived := rfl
@[simp] theorem setWaveBit_noise (v : BitVec 32) (s : State) : (setWaveBit v s).noise = s.noise := rfl
@[simp] theorem setWaveBit_usq (v : BitVec 32) (s : State) : (setWaveBit v s).usq = s.usq := rfl
@[simp] theorem setWaveBit_out (v : BitVec 32) (s : State) : (setWaveBit v s).out = s.out := rfl
@[simp] theorem setWaveBit_tables (v : BitVec 32) (s : State) : (setWaveBit v s).tables = s.tables := rfl
@[simp] theorem setWaveBit_waypoints (v : BitVec 32) (s : State) : (setWaveBit v s).waypoints = s.waypoints := rfl
@[simp] theorem setWaveBit_shadow (v : BitVec 32) (s : State) : (setWaveBit v s).shadow = s.shadow := rfl
@[simp] theorem setWaveBit_trace (v : BitVec 32) (s : State) : (setWaveBit v s).trace = s.trace := rfl
@[simp] theorem setWaveBit_input (v : BitVec 32) (s : State) : (setWaveBit v s).input = s.input := rfl
@[simp] theorem setWaveBit_cfg (v : BitVec 32) (s : State) : (setWaveBit v s).cfg = s.cfg := rfl

/-! ### `setUsqAcc` -/

@[simp] theorem setUsqAcc_params (v : BitVec 32) (s : State) : (setUsqAcc v s).params = s.params := rfl
@[simp] theorem setUsqAcc_seq (v : BitVec 32) (s : State) : (setUsqAcc v s).seq = s.seq := rfl
@[simp] theorem setUsqAcc_flags (v : BitVec 32) (s : State) : (setUsqAcc v s).flags = s.flags := rfl
@[simp] theorem setUsqAcc_derived (v : BitVec 32) (s : State) : (setUsqAcc v s).derived = s.derived := rfl
@[simp] theorem setUsqAcc_noise (v : BitVec 32) (s : State) : (setUsqAcc v s).noise = s.noise := rfl
@[simp] theorem setUsqAcc_usq_acc (v : BitVec 32) (s : State) : (setUsqAcc v s).usq.acc = v := rfl
@[simp] theorem setUsqAcc_usq_inc (v : BitVec 32) (s : State) : (setUsqAcc v s).usq.inc = s.usq.inc := rfl
@[simp] theorem setUsqAcc_usq_half (v : BitVec 32) (s : State) : (setUsqAcc v s).usq.half = s.usq.half := rfl
@[simp] theorem setUsqAcc_usq_ext (v : BitVec 32) (s : State) : (setUsqAcc v s).usq.ext = s.usq.ext := rfl
@[simp] theorem setUsqAcc_usq_pwmRange (v : BitVec 32) (s : State) :
    (setUsqAcc v s).usq.pwmRange =
      s.usq.pwmRange := rfl
@[simp] theorem setUsqAcc_usq_pwmPer (v : BitVec 32) (s : State) : (setUsqAcc v s).usq.pwmPer = s.usq.pwmPer := rfl
@[simp] theorem setUsqAcc_usq_pwmDty (v : BitVec 32) (s : State) : (setUsqAcc v s).usq.pwmDty = s.usq.pwmDty := rfl
@[simp] theorem setUsqAcc_out (v : BitVec 32) (s : State) : (setUsqAcc v s).out = s.out := rfl
@[simp] theorem setUsqAcc_tables (v : BitVec 32) (s : State) : (setUsqAcc v s).tables = s.tables := rfl
@[simp] theorem setUsqAcc_waypoints (v : BitVec 32) (s : State) : (setUsqAcc v s).waypoints = s.waypoints := rfl
@[simp] theorem setUsqAcc_shadow (v : BitVec 32) (s : State) : (setUsqAcc v s).shadow = s.shadow := rfl
@[simp] theorem setUsqAcc_trace (v : BitVec 32) (s : State) : (setUsqAcc v s).trace = s.trace := rfl
@[simp] theorem setUsqAcc_input (v : BitVec 32) (s : State) : (setUsqAcc v s).input = s.input := rfl
@[simp] theorem setUsqAcc_cfg (v : BitVec 32) (s : State) : (setUsqAcc v s).cfg = s.cfg := rfl

/-! ### `setInput` -/

@[simp] theorem setInput_params (ws : List Word) (s : State) : (setInput ws s).params = s.params := rfl
@[simp] theorem setInput_seq (ws : List Word) (s : State) : (setInput ws s).seq = s.seq := rfl
@[simp] theorem setInput_flags (ws : List Word) (s : State) : (setInput ws s).flags = s.flags := rfl
@[simp] theorem setInput_derived (ws : List Word) (s : State) : (setInput ws s).derived = s.derived := rfl
@[simp] theorem setInput_noise (ws : List Word) (s : State) : (setInput ws s).noise = s.noise := rfl
@[simp] theorem setInput_usq (ws : List Word) (s : State) : (setInput ws s).usq = s.usq := rfl
@[simp] theorem setInput_out (ws : List Word) (s : State) : (setInput ws s).out = s.out := rfl
@[simp] theorem setInput_tables (ws : List Word) (s : State) : (setInput ws s).tables = s.tables := rfl
@[simp] theorem setInput_waypoints (ws : List Word) (s : State) : (setInput ws s).waypoints = s.waypoints := rfl
@[simp] theorem setInput_shadow (ws : List Word) (s : State) : (setInput ws s).shadow = s.shadow := rfl
@[simp] theorem setInput_trace (ws : List Word) (s : State) : (setInput ws s).trace = s.trace := rfl
@[simp] theorem setInput_input (ws : List Word) (s : State) : (setInput ws s).input = ws := rfl
@[simp] theorem setInput_cfg (ws : List Word) (s : State) : (setInput ws s).cfg = s.cfg := rfl

/-! ### `commitCommon` -/

@[simp] theorem commitCommon_params (n : CommonRecord) (s : State) : (commitCommon n s).params = s.params := rfl
@[simp] theorem commitCommon_seq (n : CommonRecord) (s : State) : (commitCommon n s).seq = s.seq := rfl
@[simp] theorem commitCommon_flags_dutyNot50 (n : CommonRecord) (s : State) :
    (commitCommon n s).flags.dutyNot50 =
      n.dutyNot50 := rfl
@[simp] theorem commitCommon_flags_extreme (n : CommonRecord) (s : State) :
    (commitCommon n s).flags.extreme =
      n.extreme := rfl
@[simp] theorem commitCommon_flags_ditherOn (n : CommonRecord) (s : State) :
    (commitCommon n s).flags.ditherOn =
      n.ditherOn := rfl
@[simp] theorem commitCommon_flags_pend (n : CommonRecord) (s : State) :
    (commitCommon n s).flags.pend =
      s.flags.pend := rfl
@[simp] theorem commitCommon_flags_pendHalf (n : CommonRecord) (s : State) :
    (commitCommon n s).flags.pendHalf =
      s.flags.pendHalf := rfl
@[simp] theorem commitCommon_flags_uploadTrunc (n : CommonRecord) (s : State) :
    (commitCommon n s).flags.uploadTrunc =
      s.flags.uploadTrunc := rfl
@[simp] theorem commitCommon_flags_badCmd (n : CommonRecord) (s : State) :
    (commitCommon n s).flags.badCmd =
      s.flags.badCmd := rfl
@[simp] theorem commitCommon_flags_enSlow (n : CommonRecord) (s : State) :
    (commitCommon n s).flags.enSlow =
      s.flags.enSlow := rfl
@[simp] theorem commitCommon_flags_enFast (n : CommonRecord) (s : State) :
    (commitCommon n s).flags.enFast =
      s.flags.enFast := rfl
@[simp] theorem commitCommon_flags_enNoise (n : CommonRecord) (s : State) :
    (commitCommon n s).flags.enNoise =
      s.flags.enNoise := rfl
@[simp] theorem commitCommon_flags_enUsq (n : CommonRecord) (s : State) :
    (commitCommon n s).flags.enUsq =
      s.flags.enUsq := rfl
@[simp] theorem commitCommon_flags_enPwm (n : CommonRecord) (s : State) :
    (commitCommon n s).flags.enPwm =
      s.flags.enPwm := rfl
@[simp] theorem commitCommon_flags_run (n : CommonRecord) (s : State) :
    (commitCommon n s).flags.run =
      s.flags.run := rfl
@[simp] theorem commitCommon_flags_priorSync (n : CommonRecord) (s : State) :
    (commitCommon n s).flags.priorSync =
      s.flags.priorSync := rfl
@[simp] theorem commitCommon_derived (n : CommonRecord) (s : State) : (commitCommon n s).derived = n.regs := rfl
@[simp] theorem commitCommon_noise (n : CommonRecord) (s : State) : (commitCommon n s).noise = s.noise := rfl
@[simp] theorem commitCommon_usq (n : CommonRecord) (s : State) : (commitCommon n s).usq = s.usq := rfl
@[simp] theorem commitCommon_out (n : CommonRecord) (s : State) : (commitCommon n s).out = s.out := rfl
@[simp] theorem commitCommon_tables (n : CommonRecord) (s : State) : (commitCommon n s).tables = s.tables := rfl
@[simp] theorem commitCommon_waypoints (n : CommonRecord) (s : State) :
    (commitCommon n s).waypoints =
      s.waypoints := rfl
@[simp] theorem commitCommon_shadow (n : CommonRecord) (s : State) : (commitCommon n s).shadow = s.shadow := rfl
@[simp] theorem commitCommon_trace (n : CommonRecord) (s : State) : (commitCommon n s).trace = s.trace := rfl
@[simp] theorem commitCommon_input (n : CommonRecord) (s : State) : (commitCommon n s).input = s.input := rfl
@[simp] theorem commitCommon_cfg (n : CommonRecord) (s : State) : (commitCommon n s).cfg = s.cfg := rfl

/-! ### `commitHalf` -/

@[simp] theorem commitHalf_params (r : HalfRecord) (h : Half) (s : State) : (commitHalf r h s).params = s.params := rfl
@[simp] theorem commitHalf_seq_fastMode (r : HalfRecord) (h : Half) (s : State) :
    (commitHalf r h s).seq.fastMode =
      s.seq.fastMode := rfl
@[simp] theorem commitHalf_seq_half (r : HalfRecord) (h : Half) (s : State) :
    (commitHalf r h s).seq.half =
      s.seq.half := rfl
@[simp] theorem commitHalf_seq_waveBit (r : HalfRecord) (h : Half) (s : State) :
    (commitHalf r h s).seq.waveBit =
      s.seq.waveBit := rfl
@[simp] theorem commitHalf_seq_increment (r : HalfRecord) (h : Half) (s : State) :
    (commitHalf r h s).seq.increment =
      s.seq.increment.set h r.increment := rfl
@[simp] theorem commitHalf_seq_incBase (r : HalfRecord) (h : Half) (s : State) :
    (commitHalf r h s).seq.incBase =
      s.seq.incBase.set h r.incBase := rfl
@[simp] theorem commitHalf_seq_incFrac (r : HalfRecord) (h : Half) (s : State) :
    (commitHalf r h s).seq.incFrac =
      s.seq.incFrac.set h r.incFrac := rfl
@[simp] theorem commitHalf_seq_ratio (r : HalfRecord) (h : Half) (s : State) :
    (commitHalf r h s).seq.ratio =
      s.seq.ratio.set h r.ratio := rfl
@[simp] theorem commitHalf_seq_dacc (r : HalfRecord) (h : Half) (s : State) :
    (commitHalf r h s).seq.dacc =
      s.seq.dacc := rfl
@[simp] theorem commitHalf_seq_seqIdx (r : HalfRecord) (h : Half) (s : State) :
    (commitHalf r h s).seq.seqIdx =
      s.seq.seqIdx := rfl
@[simp] theorem commitHalf_seq_seqLen (r : HalfRecord) (h : Half) (s : State) :
    (commitHalf r h s).seq.seqLen =
      s.seq.seqLen := rfl
@[simp] theorem commitHalf_flags (r : HalfRecord) (h : Half) (s : State) : (commitHalf r h s).flags = s.flags := rfl
@[simp] theorem commitHalf_derived (r : HalfRecord) (h : Half) (s : State) :
    (commitHalf r h s).derived =
      s.derived := rfl
@[simp] theorem commitHalf_noise (r : HalfRecord) (h : Half) (s : State) : (commitHalf r h s).noise = s.noise := rfl
@[simp] theorem commitHalf_usq (r : HalfRecord) (h : Half) (s : State) : (commitHalf r h s).usq = s.usq := rfl
@[simp] theorem commitHalf_out (r : HalfRecord) (h : Half) (s : State) : (commitHalf r h s).out = s.out := rfl
@[simp] theorem commitHalf_tables_wf (r : HalfRecord) (h : Half) (s : State) :
    (commitHalf r h s).tables.wf =
      s.tables.wf.set h r.wf := rfl
@[simp] theorem commitHalf_tables_rt (r : HalfRecord) (h : Half) (s : State) :
    (commitHalf r h s).tables.rt =
      s.tables.rt.set h r.rt := rfl
@[simp] theorem commitHalf_tables_dutyT (r : HalfRecord) (h : Half) (s : State) :
    (commitHalf r h s).tables.dutyT =
      s.tables.dutyT.set h r.duty := rfl
@[simp] theorem commitHalf_waypoints (r : HalfRecord) (h : Half) (s : State) :
    (commitHalf r h s).waypoints =
      s.waypoints := rfl
@[simp] theorem commitHalf_shadow (r : HalfRecord) (h : Half) (s : State) : (commitHalf r h s).shadow = s.shadow := rfl
@[simp] theorem commitHalf_trace (r : HalfRecord) (h : Half) (s : State) : (commitHalf r h s).trace = s.trace := rfl
@[simp] theorem commitHalf_input (r : HalfRecord) (h : Half) (s : State) : (commitHalf r h s).input = s.input := rfl
@[simp] theorem commitHalf_cfg (r : HalfRecord) (h : Half) (s : State) : (commitHalf r h s).cfg = s.cfg := rfl

/-! ### `setPending` -/

@[simp] theorem setPending_params (r : HalfRecord) (h : Half) (s : State) : (setPending r h s).params = s.params := rfl
@[simp] theorem setPending_seq (r : HalfRecord) (h : Half) (s : State) : (setPending r h s).seq = s.seq := rfl
@[simp] theorem setPending_flags_dutyNot50 (r : HalfRecord) (h : Half) (s : State) :
    (setPending r h s).flags.dutyNot50 =
      s.flags.dutyNot50 := rfl
@[simp] theorem setPending_flags_extreme (r : HalfRecord) (h : Half) (s : State) :
    (setPending r h s).flags.extreme =
      s.flags.extreme := rfl
@[simp] theorem setPending_flags_ditherOn (r : HalfRecord) (h : Half) (s : State) :
    (setPending r h s).flags.ditherOn =
      s.flags.ditherOn := rfl
@[simp] theorem setPending_flags_pend (r : HalfRecord) (h : Half) (s : State) :
    (setPending r h s).flags.pend =
      true := rfl
@[simp] theorem setPending_flags_pendHalf (r : HalfRecord) (h : Half) (s : State) :
    (setPending r h s).flags.pendHalf =
      h := rfl
@[simp] theorem setPending_flags_uploadTrunc (r : HalfRecord) (h : Half) (s : State) :
    (setPending r h s).flags.uploadTrunc =
      s.flags.uploadTrunc := rfl
@[simp] theorem setPending_flags_badCmd (r : HalfRecord) (h : Half) (s : State) :
    (setPending r h s).flags.badCmd =
      s.flags.badCmd := rfl
@[simp] theorem setPending_flags_enSlow (r : HalfRecord) (h : Half) (s : State) :
    (setPending r h s).flags.enSlow =
      s.flags.enSlow := rfl
@[simp] theorem setPending_flags_enFast (r : HalfRecord) (h : Half) (s : State) :
    (setPending r h s).flags.enFast =
      s.flags.enFast := rfl
@[simp] theorem setPending_flags_enNoise (r : HalfRecord) (h : Half) (s : State) :
    (setPending r h s).flags.enNoise =
      s.flags.enNoise := rfl
@[simp] theorem setPending_flags_enUsq (r : HalfRecord) (h : Half) (s : State) :
    (setPending r h s).flags.enUsq =
      s.flags.enUsq := rfl
@[simp] theorem setPending_flags_enPwm (r : HalfRecord) (h : Half) (s : State) :
    (setPending r h s).flags.enPwm =
      s.flags.enPwm := rfl
@[simp] theorem setPending_flags_run (r : HalfRecord) (h : Half) (s : State) :
    (setPending r h s).flags.run =
      s.flags.run := rfl
@[simp] theorem setPending_flags_priorSync (r : HalfRecord) (h : Half) (s : State) :
    (setPending r h s).flags.priorSync =
      s.flags.priorSync := rfl
@[simp] theorem setPending_derived (r : HalfRecord) (h : Half) (s : State) :
    (setPending r h s).derived =
      s.derived := rfl
@[simp] theorem setPending_noise (r : HalfRecord) (h : Half) (s : State) : (setPending r h s).noise = s.noise := rfl
@[simp] theorem setPending_usq (r : HalfRecord) (h : Half) (s : State) : (setPending r h s).usq = s.usq := rfl
@[simp] theorem setPending_out (r : HalfRecord) (h : Half) (s : State) : (setPending r h s).out = s.out := rfl
@[simp] theorem setPending_tables (r : HalfRecord) (h : Half) (s : State) : (setPending r h s).tables = s.tables := rfl
@[simp] theorem setPending_waypoints (r : HalfRecord) (h : Half) (s : State) :
    (setPending r h s).waypoints =
      s.waypoints := rfl
@[simp] theorem setPending_shadow (r : HalfRecord) (h : Half) (s : State) : (setPending r h s).shadow = r := rfl
@[simp] theorem setPending_trace (r : HalfRecord) (h : Half) (s : State) : (setPending r h s).trace = s.trace := rfl
@[simp] theorem setPending_input (r : HalfRecord) (h : Half) (s : State) : (setPending r h s).input = s.input := rfl
@[simp] theorem setPending_cfg (r : HalfRecord) (h : Half) (s : State) : (setPending r h s).cfg = s.cfg := rfl

/-! ### `clearPending` -/

@[simp] theorem clearPending_params (s : State) : (clearPending s).params = s.params := rfl
@[simp] theorem clearPending_seq (s : State) : (clearPending s).seq = s.seq := rfl
@[simp] theorem clearPending_flags_dutyNot50 (s : State) : (clearPending s).flags.dutyNot50 = s.flags.dutyNot50 := rfl
@[simp] theorem clearPending_flags_extreme (s : State) : (clearPending s).flags.extreme = s.flags.extreme := rfl
@[simp] theorem clearPending_flags_ditherOn (s : State) : (clearPending s).flags.ditherOn = s.flags.ditherOn := rfl
@[simp] theorem clearPending_flags_pend (s : State) : (clearPending s).flags.pend = false := rfl
@[simp] theorem clearPending_flags_pendHalf (s : State) : (clearPending s).flags.pendHalf = s.flags.pendHalf := rfl
@[simp] theorem clearPending_flags_uploadTrunc (s : State) :
    (clearPending s).flags.uploadTrunc =
      s.flags.uploadTrunc := rfl
@[simp] theorem clearPending_flags_badCmd (s : State) : (clearPending s).flags.badCmd = s.flags.badCmd := rfl
@[simp] theorem clearPending_flags_enSlow (s : State) : (clearPending s).flags.enSlow = s.flags.enSlow := rfl
@[simp] theorem clearPending_flags_enFast (s : State) : (clearPending s).flags.enFast = s.flags.enFast := rfl
@[simp] theorem clearPending_flags_enNoise (s : State) : (clearPending s).flags.enNoise = s.flags.enNoise := rfl
@[simp] theorem clearPending_flags_enUsq (s : State) : (clearPending s).flags.enUsq = s.flags.enUsq := rfl
@[simp] theorem clearPending_flags_enPwm (s : State) : (clearPending s).flags.enPwm = s.flags.enPwm := rfl
@[simp] theorem clearPending_flags_run (s : State) : (clearPending s).flags.run = s.flags.run := rfl
@[simp] theorem clearPending_flags_priorSync (s : State) : (clearPending s).flags.priorSync = s.flags.priorSync := rfl
@[simp] theorem clearPending_derived (s : State) : (clearPending s).derived = s.derived := rfl
@[simp] theorem clearPending_noise (s : State) : (clearPending s).noise = s.noise := rfl
@[simp] theorem clearPending_usq (s : State) : (clearPending s).usq = s.usq := rfl
@[simp] theorem clearPending_out (s : State) : (clearPending s).out = s.out := rfl
@[simp] theorem clearPending_tables (s : State) : (clearPending s).tables = s.tables := rfl
@[simp] theorem clearPending_waypoints (s : State) : (clearPending s).waypoints = s.waypoints := rfl
@[simp] theorem clearPending_shadow (s : State) : (clearPending s).shadow = s.shadow := rfl
@[simp] theorem clearPending_trace (s : State) : (clearPending s).trace = s.trace := rfl
@[simp] theorem clearPending_input (s : State) : (clearPending s).input = s.input := rfl
@[simp] theorem clearPending_cfg (s : State) : (clearPending s).cfg = s.cfg := rfl

/-! ### `squareOff` -/

@[simp] theorem squareOff_params (s : State) : (squareOff s).params = s.params := rfl
@[simp] theorem squareOff_seq (s : State) : (squareOff s).seq = s.seq := rfl
@[simp] theorem squareOff_flags_dutyNot50 (s : State) : (squareOff s).flags.dutyNot50 = s.flags.dutyNot50 := rfl
@[simp] theorem squareOff_flags_extreme (s : State) : (squareOff s).flags.extreme = s.flags.extreme := rfl
@[simp] theorem squareOff_flags_ditherOn (s : State) : (squareOff s).flags.ditherOn = s.flags.ditherOn := rfl
@[simp] theorem squareOff_flags_pend (s : State) : (squareOff s).flags.pend = s.flags.pend := rfl
@[simp] theorem squareOff_flags_pendHalf (s : State) : (squareOff s).flags.pendHalf = s.flags.pendHalf := rfl
@[simp] theorem squareOff_flags_uploadTrunc (s : State) : (squareOff s).flags.uploadTrunc = s.flags.uploadTrunc := rfl
@[simp] theorem squareOff_flags_badCmd (s : State) : (squareOff s).flags.badCmd = s.flags.badCmd := rfl
@[simp] theorem squareOff_flags_enSlow (s : State) : (squareOff s).flags.enSlow = s.flags.enSlow := rfl
@[simp] theorem squareOff_flags_enFast (s : State) : (squareOff s).flags.enFast = s.flags.enFast := rfl
@[simp] theorem squareOff_flags_enNoise (s : State) : (squareOff s).flags.enNoise = s.flags.enNoise := rfl
@[simp] theorem squareOff_flags_enUsq (s : State) : (squareOff s).flags.enUsq = false := rfl
@[simp] theorem squareOff_flags_enPwm (s : State) : (squareOff s).flags.enPwm = false := rfl
@[simp] theorem squareOff_flags_run (s : State) : (squareOff s).flags.run = s.flags.run := rfl
@[simp] theorem squareOff_flags_priorSync (s : State) : (squareOff s).flags.priorSync = s.flags.priorSync := rfl
@[simp] theorem squareOff_derived (s : State) : (squareOff s).derived = s.derived := rfl
@[simp] theorem squareOff_noise (s : State) : (squareOff s).noise = s.noise := rfl
@[simp] theorem squareOff_usq (s : State) : (squareOff s).usq = s.usq := rfl
@[simp] theorem squareOff_out (s : State) : (squareOff s).out = s.out := rfl
@[simp] theorem squareOff_tables (s : State) : (squareOff s).tables = s.tables := rfl
@[simp] theorem squareOff_waypoints (s : State) : (squareOff s).waypoints = s.waypoints := rfl
@[simp] theorem squareOff_shadow (s : State) : (squareOff s).shadow = s.shadow := rfl
@[simp] theorem squareOff_trace (s : State) : (squareOff s).trace = s.trace := rfl
@[simp] theorem squareOff_input (s : State) : (squareOff s).input = s.input := rfl
@[simp] theorem squareOff_cfg (s : State) : (squareOff s).cfg = s.cfg := rfl

/-! ### `noiseCoeffs` -/

@[simp] theorem noiseCoeffs_params (s : State) : (noiseCoeffs s).params = s.params := rfl
@[simp] theorem noiseCoeffs_seq (s : State) : (noiseCoeffs s).seq = s.seq := rfl
@[simp] theorem noiseCoeffs_flags (s : State) : (noiseCoeffs s).flags = s.flags := rfl
@[simp] theorem noiseCoeffs_derived (s : State) : (noiseCoeffs s).derived = s.derived := rfl
@[simp] theorem noiseCoeffs_noise_nfFast (s : State) : (noiseCoeffs s).noise.nfFast = s.noise.nfFast := rfl
@[simp] theorem noiseCoeffs_noise_nfSlow (s : State) : (noiseCoeffs s).noise.nfSlow = s.noise.nfSlow := rfl
@[simp] theorem noiseCoeffs_noise_nfAvg (s : State) : (noiseCoeffs s).noise.nfAvg = s.noise.nfAvg := rfl
@[simp] theorem noiseCoeffs_noise_nfCnt (s : State) : (noiseCoeffs s).noise.nfCnt = s.noise.nfCnt := rfl
@[simp] theorem noiseCoeffs_noise_cf (s : State) :
    (noiseCoeffs s).noise.cf =
      BitVec.ofInt 16 (pwl s.cfg.mapCf s.params.nColor.toNat) := rfl
@[simp] theorem noiseCoeffs_noise_lfc (s : State) :
    (noiseCoeffs s).noise.lfc =
      BitVec.ofInt 16 (pwl s.cfg.mapLfc s.params.nColor.toNat) := rfl
@[simp] theorem noiseCoeffs_noise_mw (s : State) :
    (noiseCoeffs s).noise.mw =
      BitVec.ofInt 16 (pwl s.cfg.mapMw s.params.nColor.toNat) := rfl
@[simp] theorem noiseCoeffs_noise_lbw (s : State) :
    (noiseCoeffs s).noise.lbw =
      BitVec.ofInt 16 (pwl s.cfg.mapLbw s.params.nColor.toNat) := rfl
@[simp] theorem noiseCoeffs_noise_hbw (s : State) :
    (noiseCoeffs s).noise.hbw =
      BitVec.ofInt 16 (pwl s.cfg.mapHbw s.params.nColor.toNat) := rfl
@[simp] theorem noiseCoeffs_usq (s : State) : (noiseCoeffs s).usq = s.usq := rfl
@[simp] theorem noiseCoeffs_out (s : State) : (noiseCoeffs s).out = s.out := rfl
@[simp] theorem noiseCoeffs_tables (s : State) : (noiseCoeffs s).tables = s.tables := rfl
@[simp] theorem noiseCoeffs_waypoints (s : State) : (noiseCoeffs s).waypoints = s.waypoints := rfl
@[simp] theorem noiseCoeffs_shadow (s : State) : (noiseCoeffs s).shadow = s.shadow := rfl
@[simp] theorem noiseCoeffs_trace (s : State) : (noiseCoeffs s).trace = s.trace := rfl
@[simp] theorem noiseCoeffs_input (s : State) : (noiseCoeffs s).input = s.input := rfl
@[simp] theorem noiseCoeffs_cfg (s : State) : (noiseCoeffs s).cfg = s.cfg := rfl

/-! ### `teardown` -/

@[simp] theorem teardown_params (s : State) : (teardown s).params = s.params := rfl
@[simp] theorem teardown_seq (s : State) : (teardown s).seq = s.seq := rfl
@[simp] theorem teardown_flags_dutyNot50 (s : State) : (teardown s).flags.dutyNot50 = s.flags.dutyNot50 := rfl
@[simp] theorem teardown_flags_extreme (s : State) : (teardown s).flags.extreme = s.flags.extreme := rfl
@[simp] theorem teardown_flags_ditherOn (s : State) : (teardown s).flags.ditherOn = s.flags.ditherOn := rfl
@[simp] theorem teardown_flags_pend (s : State) : (teardown s).flags.pend = false := rfl
@[simp] theorem teardown_flags_pendHalf (s : State) : (teardown s).flags.pendHalf = s.flags.pendHalf := rfl
@[simp] theorem teardown_flags_uploadTrunc (s : State) : (teardown s).flags.uploadTrunc = s.flags.uploadTrunc := rfl
@[simp] theorem teardown_flags_badCmd (s : State) : (teardown s).flags.badCmd = s.flags.badCmd := rfl
@[simp] theorem teardown_flags_enSlow (s : State) : (teardown s).flags.enSlow = false := rfl
@[simp] theorem teardown_flags_enFast (s : State) : (teardown s).flags.enFast = false := rfl
@[simp] theorem teardown_flags_enNoise (s : State) : (teardown s).flags.enNoise = false := rfl
@[simp] theorem teardown_flags_enUsq (s : State) : (teardown s).flags.enUsq = false := rfl
@[simp] theorem teardown_flags_enPwm (s : State) : (teardown s).flags.enPwm = false := rfl
@[simp] theorem teardown_flags_run (s : State) : (teardown s).flags.run = s.flags.run := rfl
@[simp] theorem teardown_flags_priorSync (s : State) : (teardown s).flags.priorSync = s.flags.priorSync := rfl
@[simp] theorem teardown_derived (s : State) : (teardown s).derived = s.derived := rfl
@[simp] theorem teardown_noise (s : State) : (teardown s).noise = s.noise := rfl
@[simp] theorem teardown_usq (s : State) : (teardown s).usq = s.usq := rfl
@[simp] theorem teardown_out (s : State) : (teardown s).out = s.out := rfl
@[simp] theorem teardown_tables (s : State) : (teardown s).tables = s.tables := rfl
@[simp] theorem teardown_waypoints (s : State) : (teardown s).waypoints = s.waypoints := rfl
@[simp] theorem teardown_shadow (s : State) : (teardown s).shadow = s.shadow := rfl
@[simp] theorem teardown_trace (s : State) : (teardown s).trace = s.trace := rfl
@[simp] theorem teardown_input (s : State) : (teardown s).input = s.input := rfl
@[simp] theorem teardown_cfg (s : State) : (teardown s).cfg = s.cfg := rfl

/-! ### `latchLength` -/

@[simp] theorem latchLength_params (h : Half) (t : Tier) (s : State) : (latchLength h t s).params = s.params := rfl
@[simp] theorem latchLength_seq_fastMode (h : Half) (t : Tier) (s : State) :
    (latchLength h t s).seq.fastMode =
      s.seq.fastMode := rfl
@[simp] theorem latchLength_seq_half (h : Half) (t : Tier) (s : State) :
    (latchLength h t s).seq.half =
      s.seq.half := rfl
@[simp] theorem latchLength_seq_waveBit (h : Half) (t : Tier) (s : State) :
    (latchLength h t s).seq.waveBit =
      s.seq.waveBit := rfl
@[simp] theorem latchLength_seq_increment (h : Half) (t : Tier) (s : State) :
    (latchLength h t s).seq.increment =
      s.seq.increment := rfl
@[simp] theorem latchLength_seq_incBase (h : Half) (t : Tier) (s : State) :
    (latchLength h t s).seq.incBase =
      s.seq.incBase := rfl
@[simp] theorem latchLength_seq_incFrac (h : Half) (t : Tier) (s : State) :
    (latchLength h t s).seq.incFrac =
      s.seq.incFrac := rfl
@[simp] theorem latchLength_seq_ratio (h : Half) (t : Tier) (s : State) :
    (latchLength h t s).seq.ratio =
      s.seq.ratio := rfl
@[simp] theorem latchLength_seq_dacc (h : Half) (t : Tier) (s : State) :
    (latchLength h t s).seq.dacc =
      s.seq.dacc := rfl
@[simp] theorem latchLength_seq_seqIdx (h : Half) (t : Tier) (s : State) :
    (latchLength h t s).seq.seqIdx =
      s.seq.seqIdx := rfl
@[simp] theorem latchLength_seq_seqLen (h : Half) (t : Tier) (s : State) :
    (latchLength h t s).seq.seqLen =
      BitVec.ofNat 8 (max (dutyCount s h t) 1) := rfl
@[simp] theorem latchLength_flags (h : Half) (t : Tier) (s : State) : (latchLength h t s).flags = s.flags := rfl
@[simp] theorem latchLength_derived (h : Half) (t : Tier) (s : State) : (latchLength h t s).derived = s.derived := rfl
@[simp] theorem latchLength_noise (h : Half) (t : Tier) (s : State) : (latchLength h t s).noise = s.noise := rfl
@[simp] theorem latchLength_usq (h : Half) (t : Tier) (s : State) : (latchLength h t s).usq = s.usq := rfl
@[simp] theorem latchLength_out (h : Half) (t : Tier) (s : State) : (latchLength h t s).out = s.out := rfl
@[simp] theorem latchLength_tables (h : Half) (t : Tier) (s : State) : (latchLength h t s).tables = s.tables := rfl
@[simp] theorem latchLength_waypoints (h : Half) (t : Tier) (s : State) :
    (latchLength h t s).waypoints =
      s.waypoints := rfl
@[simp] theorem latchLength_shadow (h : Half) (t : Tier) (s : State) : (latchLength h t s).shadow = s.shadow := rfl
@[simp] theorem latchLength_trace (h : Half) (t : Tier) (s : State) : (latchLength h t s).trace = s.trace := rfl
@[simp] theorem latchLength_input (h : Half) (t : Tier) (s : State) : (latchLength h t s).input = s.input := rfl
@[simp] theorem latchLength_cfg (h : Half) (t : Tier) (s : State) : (latchLength h t s).cfg = s.cfg := rfl

/-! ### `startNoise` -/

@[simp] theorem startNoise_params (s : State) : (startNoise s).params = s.params := rfl
@[simp] theorem startNoise_seq (s : State) : (startNoise s).seq = s.seq := rfl
@[simp] theorem startNoise_flags_dutyNot50 (s : State) : (startNoise s).flags.dutyNot50 = s.flags.dutyNot50 := rfl
@[simp] theorem startNoise_flags_extreme (s : State) : (startNoise s).flags.extreme = s.flags.extreme := rfl
@[simp] theorem startNoise_flags_ditherOn (s : State) : (startNoise s).flags.ditherOn = s.flags.ditherOn := rfl
@[simp] theorem startNoise_flags_pend (s : State) : (startNoise s).flags.pend = s.flags.pend := rfl
@[simp] theorem startNoise_flags_pendHalf (s : State) : (startNoise s).flags.pendHalf = s.flags.pendHalf := rfl
@[simp] theorem startNoise_flags_uploadTrunc (s : State) : (startNoise s).flags.uploadTrunc = s.flags.uploadTrunc := rfl
@[simp] theorem startNoise_flags_badCmd (s : State) : (startNoise s).flags.badCmd = s.flags.badCmd := rfl
@[simp] theorem startNoise_flags_enSlow (s : State) : (startNoise s).flags.enSlow = s.flags.enSlow := rfl
@[simp] theorem startNoise_flags_enFast (s : State) : (startNoise s).flags.enFast = s.flags.enFast := rfl
@[simp] theorem startNoise_flags_enNoise (s : State) : (startNoise s).flags.enNoise = true := rfl
@[simp] theorem startNoise_flags_enUsq (s : State) : (startNoise s).flags.enUsq = s.flags.enUsq := rfl
@[simp] theorem startNoise_flags_enPwm (s : State) : (startNoise s).flags.enPwm = s.flags.enPwm := rfl
@[simp] theorem startNoise_flags_run (s : State) : (startNoise s).flags.run = s.flags.run := rfl
@[simp] theorem startNoise_flags_priorSync (s : State) : (startNoise s).flags.priorSync = s.flags.priorSync := rfl
@[simp] theorem startNoise_derived (s : State) : (startNoise s).derived = s.derived := rfl
@[simp] theorem startNoise_noise (s : State) : (startNoise s).noise = s.noise := rfl
@[simp] theorem startNoise_usq (s : State) : (startNoise s).usq = s.usq := rfl
@[simp] theorem startNoise_out (s : State) : (startNoise s).out = s.out := rfl
@[simp] theorem startNoise_tables (s : State) : (startNoise s).tables = s.tables := rfl
@[simp] theorem startNoise_waypoints (s : State) : (startNoise s).waypoints = s.waypoints := rfl
@[simp] theorem startNoise_shadow (s : State) : (startNoise s).shadow = s.shadow := rfl
@[simp] theorem startNoise_trace (s : State) : (startNoise s).trace = s.trace := rfl
@[simp] theorem startNoise_input (s : State) : (startNoise s).input = s.input := rfl
@[simp] theorem startNoise_cfg (s : State) : (startNoise s).cfg = s.cfg := rfl

/-! ### `startPwm` -/

@[simp] theorem startPwm_params (f d : Nat) (s : State) : (startPwm f d s).params = s.params := rfl
@[simp] theorem startPwm_seq (f d : Nat) (s : State) : (startPwm f d s).seq = s.seq := rfl
@[simp] theorem startPwm_flags_dutyNot50 (f d : Nat) (s : State) :
    (startPwm f d s).flags.dutyNot50 =
      s.flags.dutyNot50 := rfl
@[simp] theorem startPwm_flags_extreme (f d : Nat) (s : State) : (startPwm f d s).flags.extreme = s.flags.extreme := rfl
@[simp] theorem startPwm_flags_ditherOn (f d : Nat) (s : State) :
    (startPwm f d s).flags.ditherOn =
      s.flags.ditherOn := rfl
@[simp] theorem startPwm_flags_pend (f d : Nat) (s : State) : (startPwm f d s).flags.pend = s.flags.pend := rfl
@[simp] theorem startPwm_flags_pendHalf (f d : Nat) (s : State) :
    (startPwm f d s).flags.pendHalf =
      s.flags.pendHalf := rfl
@[simp] theorem startPwm_flags_uploadTrunc (f d : Nat) (s : State) :
    (startPwm f d s).flags.uploadTrunc =
      s.flags.uploadTrunc := rfl
@[simp] theorem startPwm_flags_badCmd (f d : Nat) (s : State) : (startPwm f d s).flags.badCmd = s.flags.badCmd := rfl
@[simp] theorem startPwm_flags_enSlow (f d : Nat) (s : State) : (startPwm f d s).flags.enSlow = s.flags.enSlow := rfl
@[simp] theorem startPwm_flags_enFast (f d : Nat) (s : State) : (startPwm f d s).flags.enFast = s.flags.enFast := rfl
@[simp] theorem startPwm_flags_enNoise (f d : Nat) (s : State) : (startPwm f d s).flags.enNoise = s.flags.enNoise := rfl
@[simp] theorem startPwm_flags_enUsq (f d : Nat) (s : State) : (startPwm f d s).flags.enUsq = s.flags.enUsq := rfl
@[simp] theorem startPwm_flags_enPwm (f d : Nat) (s : State) : (startPwm f d s).flags.enPwm = true := rfl
@[simp] theorem startPwm_flags_run (f d : Nat) (s : State) : (startPwm f d s).flags.run = s.flags.run := rfl
@[simp] theorem startPwm_flags_priorSync (f d : Nat) (s : State) :
    (startPwm f d s).flags.priorSync =
      s.flags.priorSync := rfl
@[simp] theorem startPwm_derived (f d : Nat) (s : State) : (startPwm f d s).derived = s.derived := rfl
@[simp] theorem startPwm_noise (f d : Nat) (s : State) : (startPwm f d s).noise = s.noise := rfl
@[simp] theorem startPwm_usq_acc (f d : Nat) (s : State) : (startPwm f d s).usq.acc = s.usq.acc := rfl
@[simp] theorem startPwm_usq_inc (f d : Nat) (s : State) : (startPwm f d s).usq.inc = s.usq.inc := rfl
@[simp] theorem startPwm_usq_half (f d : Nat) (s : State) : (startPwm f d s).usq.half = s.usq.half := rfl
@[simp] theorem startPwm_usq_ext (f d : Nat) (s : State) : (startPwm f d s).usq.ext = s.usq.ext := rfl
@[simp] theorem startPwm_usq_pwmRange (f d : Nat) (s : State) :
    (startPwm f d s).usq.pwmRange =
      BitVec.ofNat 2 (pwmRangeOf s.cfg f) := rfl
@[simp] theorem startPwm_out (f d : Nat) (s : State) : (startPwm f d s).out = s.out := rfl
@[simp] theorem startPwm_tables (f d : Nat) (s : State) : (startPwm f d s).tables = s.tables := rfl
@[simp] theorem startPwm_waypoints (f d : Nat) (s : State) : (startPwm f d s).waypoints = s.waypoints := rfl
@[simp] theorem startPwm_shadow (f d : Nat) (s : State) : (startPwm f d s).shadow = s.shadow := rfl
@[simp] theorem startPwm_trace (f d : Nat) (s : State) : (startPwm f d s).trace = s.trace := rfl
@[simp] theorem startPwm_input (f d : Nat) (s : State) : (startPwm f d s).input = s.input := rfl
@[simp] theorem startPwm_cfg (f d : Nat) (s : State) : (startPwm f d s).cfg = s.cfg := rfl

/-! ### `startAccumulator` -/

@[simp] theorem startAccumulator_params (f d : Nat) (s : State) : (startAccumulator f d s).params = s.params := rfl
@[simp] theorem startAccumulator_seq (f d : Nat) (s : State) : (startAccumulator f d s).seq = s.seq := rfl
@[simp] theorem startAccumulator_flags_dutyNot50 (f d : Nat) (s : State) :
    (startAccumulator f d s).flags.dutyNot50 =
      s.flags.dutyNot50 := rfl
@[simp] theorem startAccumulator_flags_extreme (f d : Nat) (s : State) :
    (startAccumulator f d s).flags.extreme =
      s.flags.extreme := rfl
@[simp] theorem startAccumulator_flags_ditherOn (f d : Nat) (s : State) :
    (startAccumulator f d s).flags.ditherOn =
      s.flags.ditherOn := rfl
@[simp] theorem startAccumulator_flags_pend (f d : Nat) (s : State) :
    (startAccumulator f d s).flags.pend =
      s.flags.pend := rfl
@[simp] theorem startAccumulator_flags_pendHalf (f d : Nat) (s : State) :
    (startAccumulator f d s).flags.pendHalf =
      s.flags.pendHalf := rfl
@[simp] theorem startAccumulator_flags_uploadTrunc (f d : Nat) (s : State) :
    (startAccumulator f d s).flags.uploadTrunc =
      s.flags.uploadTrunc := rfl
@[simp] theorem startAccumulator_flags_badCmd (f d : Nat) (s : State) :
    (startAccumulator f d s).flags.badCmd =
      s.flags.badCmd := rfl
@[simp] theorem startAccumulator_flags_enSlow (f d : Nat) (s : State) :
    (startAccumulator f d s).flags.enSlow =
      s.flags.enSlow := rfl
@[simp] theorem startAccumulator_flags_enFast (f d : Nat) (s : State) :
    (startAccumulator f d s).flags.enFast =
      s.flags.enFast := rfl
@[simp] theorem startAccumulator_flags_enNoise (f d : Nat) (s : State) :
    (startAccumulator f d s).flags.enNoise =
      s.flags.enNoise := rfl
@[simp] theorem startAccumulator_flags_enUsq (f d : Nat) (s : State) :
    (startAccumulator f d s).flags.enUsq =
      true := rfl
@[simp] theorem startAccumulator_flags_enPwm (f d : Nat) (s : State) :
    (startAccumulator f d s).flags.enPwm =
      s.flags.enPwm := rfl
@[simp] theorem startAccumulator_flags_run (f d : Nat) (s : State) :
    (startAccumulator f d s).flags.run =
      s.flags.run := rfl
@[simp] theorem startAccumulator_flags_priorSync (f d : Nat) (s : State) :
    (startAccumulator f d s).flags.priorSync =
      s.flags.priorSync := rfl
@[simp] theorem startAccumulator_derived (f d : Nat) (s : State) : (startAccumulator f d s).derived = s.derived := rfl
@[simp] theorem startAccumulator_noise (f d : Nat) (s : State) : (startAccumulator f d s).noise = s.noise := rfl
@[simp] theorem startAccumulator_usq_acc (f d : Nat) (s : State) : (startAccumulator f d s).usq.acc = 0 := rfl
@[simp] theorem startAccumulator_usq_inc (f d : Nat) (s : State) :
    (startAccumulator f d s).usq.inc =
      PerHalf.make fun k => roundStep ((slowDerive s.cfg f d false fUsq).step.get k) := rfl
@[simp] theorem startAccumulator_usq_half (f d : Nat) (s : State) :
    (startAccumulator f d s).usq.half =
      firstHalf (slowDerive s.cfg f d false fUsq).dutyA := rfl
@[simp] theorem startAccumulator_usq_ext (f d : Nat) (s : State) :
    (startAccumulator f d s).usq.ext =
      (slowDerive s.cfg f d false fUsq).extreme := rfl
@[simp] theorem startAccumulator_usq_pwmRange (f d : Nat) (s : State) :
    (startAccumulator f d s).usq.pwmRange =
      s.usq.pwmRange := rfl
@[simp] theorem startAccumulator_usq_pwmPer (f d : Nat) (s : State) :
    (startAccumulator f d s).usq.pwmPer =
      s.usq.pwmPer := rfl
@[simp] theorem startAccumulator_usq_pwmDty (f d : Nat) (s : State) :
    (startAccumulator f d s).usq.pwmDty =
      s.usq.pwmDty := rfl
@[simp] theorem startAccumulator_out_dacOut (f d : Nat) (s : State) :
    (startAccumulator f d s).out.dacOut =
      s.out.dacOut := rfl
@[simp] theorem startAccumulator_out_sqOut (f d : Nat) (s : State) :
    (startAccumulator f d s).out.sqOut =
      level (firstHalf (slowDerive s.cfg f d false fUsq).dutyA) := rfl
@[simp] theorem startAccumulator_tables (f d : Nat) (s : State) : (startAccumulator f d s).tables = s.tables := rfl
@[simp] theorem startAccumulator_waypoints (f d : Nat) (s : State) :
    (startAccumulator f d s).waypoints =
      s.waypoints := rfl
@[simp] theorem startAccumulator_shadow (f d : Nat) (s : State) : (startAccumulator f d s).shadow = s.shadow := rfl
@[simp] theorem startAccumulator_trace (f d : Nat) (s : State) :
    (startAccumulator f d s).trace =
      s.trace ++ [.sq (level (firstHalf (slowDerive s.cfg f d false fUsq).dutyA)) 0] := rfl
@[simp] theorem startAccumulator_input (f d : Nat) (s : State) : (startAccumulator f d s).input = s.input := rfl
@[simp] theorem startAccumulator_cfg (f d : Nat) (s : State) : (startAccumulator f d s).cfg = s.cfg := rfl

/-! ### `ditherPoint` -/

@[simp] theorem ditherPoint_params (s : State) : (ditherPoint s).params = s.params := rfl
@[simp] theorem ditherPoint_seq_fastMode (s : State) : (ditherPoint s).seq.fastMode = s.seq.fastMode := rfl
@[simp] theorem ditherPoint_seq_half (s : State) : (ditherPoint s).seq.half = s.seq.half := rfl
@[simp] theorem ditherPoint_seq_waveBit (s : State) : (ditherPoint s).seq.waveBit = s.seq.waveBit := rfl
@[simp] theorem ditherPoint_seq_incBase (s : State) : (ditherPoint s).seq.incBase = s.seq.incBase := rfl
@[simp] theorem ditherPoint_seq_incFrac (s : State) : (ditherPoint s).seq.incFrac = s.seq.incFrac := rfl
@[simp] theorem ditherPoint_seq_ratio (s : State) : (ditherPoint s).seq.ratio = s.seq.ratio := rfl
@[simp] theorem ditherPoint_seq_dacc (s : State) :
    (ditherPoint s).seq.dacc =
      PerHalf.make fun h => ditherSum s h - ditherPoints * ditherBump s h := rfl
@[simp] theorem ditherPoint_seq_seqIdx (s : State) : (ditherPoint s).seq.seqIdx = s.seq.seqIdx := rfl
@[simp] theorem ditherPoint_seq_seqLen (s : State) : (ditherPoint s).seq.seqLen = s.seq.seqLen := rfl
@[simp] theorem ditherPoint_flags (s : State) : (ditherPoint s).flags = s.flags := rfl
@[simp] theorem ditherPoint_derived (s : State) : (ditherPoint s).derived = s.derived := rfl
@[simp] theorem ditherPoint_noise (s : State) : (ditherPoint s).noise = s.noise := rfl
@[simp] theorem ditherPoint_usq (s : State) : (ditherPoint s).usq = s.usq := rfl
@[simp] theorem ditherPoint_out (s : State) : (ditherPoint s).out = s.out := rfl
@[simp] theorem ditherPoint_tables (s : State) : (ditherPoint s).tables = s.tables := rfl
@[simp] theorem ditherPoint_waypoints (s : State) : (ditherPoint s).waypoints = s.waypoints := rfl
@[simp] theorem ditherPoint_shadow (s : State) : (ditherPoint s).shadow = s.shadow := rfl
@[simp] theorem ditherPoint_trace (s : State) : (ditherPoint s).trace = s.trace := rfl
@[simp] theorem ditherPoint_input (s : State) : (ditherPoint s).input = s.input := rfl
@[simp] theorem ditherPoint_cfg (s : State) : (ditherPoint s).cfg = s.cfg := rfl

end Sys2Proof.Machine
end

