-- ==== Sys2Proof/Laws/Frames.lean ====
section
/-! SUPPORT. What each shared procedure leaves as it was: one lemma per field it never writes. What it does to the others is in
Sys2Proof/Laws/Ops.lean. -/

namespace Sys2Proof.Machine

-- One lemma after the other, so that few threads are held at once.
set_option Elab.async false

/-! ### `FinishPending` writes only the tables, the step sizes of one half and PEND (43_downsampler_and_tier_buffers.md R227). -/

@[simp] theorem finishPending_params (s : State) : (finishPending s).params = s.params := by
  unfold finishPending; split <;> rfl
@[simp] theorem finishPending_seq_fastMode (s : State) : (finishPending s).seq.fastMode = s.seq.fastMode := by
  unfold finishPending; split <;> rfl
@[simp] theorem finishPending_seq_half (s : State) : (finishPending s).seq.half = s.seq.half := by
  unfold finishPending; split <;> rfl
@[simp] theorem finishPending_seq_waveBit (s : State) : (finishPending s).seq.waveBit = s.seq.waveBit := by
  unfold finishPending; split <;> rfl
@[simp] theorem finishPending_seq_dacc (s : State) : (finishPending s).seq.dacc = s.seq.dacc := by
  unfold finishPending; split <;> rfl
@[simp] theorem finishPending_seq_seqIdx (s : State) : (finishPending s).seq.seqIdx = s.seq.seqIdx := by
  unfold finishPending; split <;> rfl
@[simp] theorem finishPending_seq_seqLen (s : State) : (finishPending s).seq.seqLen = s.seq.seqLen := by
  unfold finishPending; split <;> rfl
@[simp] theorem finishPending_flags_dutyNot50 (s : State) : (finishPending s).flags.dutyNot50 = s.flags.dutyNot50 := by
  unfold finishPending; split <;> rfl
@[simp] theorem finishPending_flags_extreme (s : State) : (finishPending s).flags.extreme = s.flags.extreme := by
  unfold finishPending; split <;> rfl
@[simp] theorem finishPending_flags_ditherOn (s : State) : (finishPending s).flags.ditherOn = s.flags.ditherOn := by
  unfold finishPending; split <;> rfl
@[simp] theorem finishPending_flags_pendHalf (s : State) : (finishPending s).flags.pendHalf = s.flags.pendHalf := by
  unfold finishPending; split <;> rfl
@[simp] theorem finishPending_flags_uploadTrunc (s : State) : (finishPending s).flags.uploadTrunc = s.flags.uploadTrunc := by
  unfold finishPending; split <;> rfl
@[simp] theorem finishPending_flags_badCmd (s : State) : (finishPending s).flags.badCmd = s.flags.badCmd := by
  unfold finishPending; split <;> rfl
@[simp] theorem finishPending_flags_enSlow (s : State) : (finishPending s).flags.enSlow = s.flags.enSlow := by
  unfold finishPending; split <;> rfl
@[simp] theorem finishPending_flags_enFast (s : State) : (finishPending s).flags.enFast = s.flags.enFast := by
  unfold finishPending; split <;> rfl
@[simp] theorem finishPending_flags_enNoise (s : State) : (finishPending s).flags.enNoise = s.flags.enNoise := by
  unfold finishPending; split <;> rfl
@[simp] theorem finishPending_flags_enUsq (s : State) : (finishPending s).flags.enUsq = s.flags.enUsq := by
  unfold finishPending; split <;> rfl
@[simp] theorem finishPending_flags_enPwm (s : State) : (finishPending s).flags.enPwm = s.flags.enPwm := by
  unfold finishPending; split <;> rfl
@[simp] theorem finishPending_flags_run (s : State) : (finishPending s).flags.run = s.flags.run := by
  unfold finishPending; split <;> rfl
@[simp] theorem finishPending_flags_priorSync (s : State) : (finishPending s).flags.priorSync = s.flags.priorSync := by
  unfold finishPending; split <;> rfl
@[simp] theorem finishPending_derived (s : State) : (finishPending s).derived = s.derived := by
  unfold finishPending; split <;> rfl
@[simp] theorem finishPending_noise (s : State) : (finishPending s).noise = s.noise := by
  unfold finishPending; split <;> rfl
@[simp] theorem finishPending_usq (s : State) : (finishPending s).usq = s.usq := by
  unfold finishPending; split <;> rfl
@[simp] theorem finishPending_out (s : State) : (finishPending s).out = s.out := by
  unfold finishPending; split <;> rfl
@[simp] theorem finishPending_waypoints (s : State) : (finishPending s).waypoints = s.waypoints := by
  unfold finishPending; split <;> rfl
@[simp] theorem finishPending_shadow (s : State) : (finishPending s).shadow = s.shadow := by
  unfold finishPending; split <;> rfl
@[simp] theorem finishPending_trace (s : State) : (finishPending s).trace = s.trace := by
  unfold finishPending; split <;> rfl
@[simp] theorem finishPending_input (s : State) : (finishPending s).input = s.input := by
  unfold finishPending; split <;> rfl
@[simp] theorem finishPending_cfg (s : State) : (finishPending s).cfg = s.cfg := by
  unfold finishPending; split <;> rfl

/-! ### `Boundary` writes only SQ_OUT and the trace (45_sequencer_and_sync_square.md R285). -/

@[simp] theorem boundary_params (k : BoundaryKind) (s : State) : (boundary k s).params = s.params := by
  unfold boundary; split; · rfl
  cases k <;> rfl
@[simp] theorem boundary_seq (k : BoundaryKind) (s : State) : (boundary k s).seq = s.seq := by
  unfold boundary; split; · rfl
  cases k <;> rfl
@[simp] theorem boundary_flags (k : BoundaryKind) (s : State) : (boundary k s).flags = s.flags := by
  unfold boundary; split; · rfl
  cases k <;> rfl
@[simp] theorem boundary_derived (k : BoundaryKind) (s : State) : (boundary k s).derived = s.derived := by
  unfold boundary; split; · rfl
  cases k <;> rfl
@[simp] theorem boundary_noise (k : BoundaryKind) (s : State) : (boundary k s).noise = s.noise := by
  unfold boundary; split; · rfl
  cases k <;> rfl
@[simp] theorem boundary_usq (k : BoundaryKind) (s : State) : (boundary k s).usq = s.usq := by
  unfold boundary; split; · rfl
  cases k <;> rfl
@[simp] theorem boundary_out_dacOut (k : BoundaryKind) (s : State) : (boundary k s).out.dacOut = s.out.dacOut := by
  unfold boundary; split; · rfl
  cases k <;> rfl
@[simp] theorem boundary_tables (k : BoundaryKind) (s : State) : (boundary k s).tables = s.tables := by
  unfold boundary; split; · rfl
  cases k <;> rfl
@[simp] theorem boundary_waypoints (k : BoundaryKind) (s : State) : (boundary k s).waypoints = s.waypoints := by
  unfold boundary; split; · rfl
  cases k <;> rfl
@[simp] theorem boundary_shadow (k : BoundaryKind) (s : State) : (boundary k s).shadow = s.shadow := by
  unfold boundary; split; · rfl
  cases k <;> rfl
@[simp] theorem boundary_input (k : BoundaryKind) (s : State) : (boundary k s).input = s.input := by
  unfold boundary; split; · rfl
  cases k <;> rfl
@[simp] theorem boundary_cfg (k : BoundaryKind) (s : State) : (boundary k s).cfg = s.cfg := by
  unfold boundary; split; · rfl
  cases k <;> rfl

/-! ### The level after a mode switch or TGLSYNC writes only SQ_OUT and the trace (45_sequencer_and_sync_square.md R290). -/

@[simp] theorem syncLevel_params (s : State) : (syncLevel s).params = s.params := by
  unfold syncLevel; split <;> rfl
@[simp] theorem syncLevel_seq (s : State) : (syncLevel s).seq = s.seq := by
  unfold syncLevel; split <;> rfl
@[simp] theorem syncLevel_flags (s : State) : (syncLevel s).flags = s.flags := by
  unfold syncLevel; split <;> rfl
@[simp] theorem syncLevel_derived (s : State) : (syncLevel s).derived = s.derived := by
  unfold syncLevel; split <;> rfl
@[simp] theorem syncLevel_noise (s : State) : (syncLevel s).noise = s.noise := by
  unfold syncLevel; split <;> rfl
@[simp] theorem syncLevel_usq (s : State) : (syncLevel s).usq = s.usq := by
  unfold syncLevel; split <;> rfl
@[simp] theorem syncLevel_out_dacOut (s : State) : (syncLevel s).out.dacOut = s.out.dacOut := by
  unfold syncLevel; split <;> rfl
@[simp] theorem syncLevel_tables (s : State) : (syncLevel s).tables = s.tables := by
  unfold syncLevel; split <;> rfl
@[simp] theorem syncLevel_waypoints (s : State) : (syncLevel s).waypoints = s.waypoints := by
  unfold syncLevel; split <;> rfl
@[simp] theorem syncLevel_shadow (s : State) : (syncLevel s).shadow = s.shadow := by
  unfold syncLevel; split <;> rfl
@[simp] theorem syncLevel_input (s : State) : (syncLevel s).input = s.input := by
  unfold syncLevel; split <;> rfl
@[simp] theorem syncLevel_cfg (s : State) : (syncLevel s).cfg = s.cfg := by
  unfold syncLevel; split <;> rfl

/-! ### Starting a path writes only HALF, SEQ_LEN and its enable (40_clock_and_tier.md R130). -/

@[simp] theorem enableWave_params (fm : FastMode) (s : State) : (enableWave fm s).params = s.params := by
  cases fm <;> rfl
@[simp] theorem enableWave_seq_fastMode (fm : FastMode) (s : State) : (enableWave fm s).seq.fastMode = s.seq.fastMode := by
  cases fm <;> rfl
@[simp] theorem enableWave_seq_waveBit (fm : FastMode) (s : State) : (enableWave fm s).seq.waveBit = s.seq.waveBit := by
  cases fm <;> rfl
@[simp] theorem enableWave_seq_increment (fm : FastMode) (s : State) : (enableWave fm s).seq.increment = s.seq.increment := by
  cases fm <;> rfl
@[simp] theorem enableWave_seq_incBase (fm : FastMode) (s : State) : (enableWave fm s).seq.incBase = s.seq.incBase := by
  cases fm <;> rfl
@[simp] theorem enableWave_seq_incFrac (fm : FastMode) (s : State) : (enableWave fm s).seq.incFrac = s.seq.incFrac := by
  cases fm <;> rfl
@[simp] theorem enableWave_seq_ratio (fm : FastMode) (s : State) : (enableWave fm s).seq.ratio = s.seq.ratio := by
  cases fm <;> rfl
@[simp] theorem enableWave_seq_dacc (fm : FastMode) (s : State) : (enableWave fm s).seq.dacc = s.seq.dacc := by
  cases fm <;> rfl
@[simp] theorem enableWave_seq_seqIdx (fm : FastMode) (s : State) : (enableWave fm s).seq.seqIdx = s.seq.seqIdx := by
  cases fm <;> rfl
@[simp] theorem enableWave_flags_dutyNot50 (fm : FastMode) (s : State) : (enableWave fm s).flags.dutyNot50 = s.flags.dutyNot50 := by
  cases fm <;> rfl
@[simp] theorem enableWave_flags_extreme (fm : FastMode) (s : State) : (enableWave fm s).flags.extreme = s.flags.extreme := by
  cases fm <;> rfl
@[simp] theorem enableWave_flags_ditherOn (fm : FastMode) (s : State) : (enableWave fm s).flags.ditherOn = s.flags.ditherOn := by
  cases fm <;> rfl
@[simp] theorem enableWave_flags_pend (fm : FastMode) (s : State) : (enableWave fm s).flags.pend = s.flags.pend := by
  cases fm <;> rfl
@[simp] theorem enableWave_flags_pendHalf (fm : FastMode) (s : State) : (enableWave fm s).flags.pendHalf = s.flags.pendHalf := by
  cases fm <;> rfl
@[simp] theorem enableWave_flags_uploadTrunc (fm : FastMode) (s : State) : (enableWave fm s).flags.uploadTrunc = s.flags.uploadTrunc := by
  cases fm <;> rfl
@[simp] theorem enableWave_flags_badCmd (fm : FastMode) (s : State) : (enableWave fm s).flags.badCmd = s.flags.badCmd := by
  cases fm <;> rfl
@[simp] theorem enableWave_flags_enNoise (fm : FastMode) (s : State) : (enableWave fm s).flags.enNoise = s.flags.enNoise := by
  cases fm <;> rfl
@[simp] theorem enableWave_flags_enUsq (fm : FastMode) (s : State) : (enableWave fm s).flags.enUsq = s.flags.enUsq := by
  cases fm <;> rfl
@[simp] theorem enableWave_flags_enPwm (fm : FastMode) (s : State) : (enableWave fm s).flags.enPwm = s.flags.enPwm := by
  cases fm <;> rfl
@[simp] theorem enableWave_flags_run (fm : FastMode) (s : State) : (enableWave fm s).flags.run = s.flags.run := by
  cases fm <;> rfl
@[simp] theorem enableWave_flags_priorSync (fm : FastMode) (s : State) : (enableWave fm s).flags.priorSync = s.flags.priorSync := by
  cases fm <;> rfl
@[simp] theorem enableWave_derived (fm : FastMode) (s : State) : (enableWave fm s).derived = s.derived := by
  cases fm <;> rfl
@[simp] theorem enableWave_noise (fm : FastMode) (s : State) : (enableWave fm s).noise = s.noise := by
  cases fm <;> rfl
@[simp] theorem enableWave_usq (fm : FastMode) (s : State) : (enableWave fm s).usq = s.usq := by
  cases fm <;> rfl
@[simp] theorem enableWave_out (fm : FastMode) (s : State) : (enableWave fm s).out = s.out := by
  cases fm <;> rfl
@[simp] theorem enableWave_tables (fm : FastMode) (s : State) : (enableWave fm s).tables = s.tables := by
  cases fm <;> rfl
@[simp] theorem enableWave_waypoints (fm : FastMode) (s : State) : (enableWave fm s).waypoints = s.waypoints := by
  cases fm <;> rfl
@[simp] theorem enableWave_shadow (fm : FastMode) (s : State) : (enableWave fm s).shadow = s.shadow := by
  cases fm <;> rfl
@[simp] theorem enableWave_trace (fm : FastMode) (s : State) : (enableWave fm s).trace = s.trace := by
  cases fm <;> rfl
@[simp] theorem enableWave_input (fm : FastMode) (s : State) : (enableWave fm s).input = s.input := by
  cases fm <;> rfl
@[simp] theorem enableWave_cfg (fm : FastMode) (s : State) : (enableWave fm s).cfg = s.cfg := by
  cases fm <;> rfl

/-! ### Installing a derivation writes only the sequencing state, the tables, the derived registers and three flags
(40_clock_and_tier.md R130). -/

@[simp] theorem installWave_params (fm : FastMode) (s : State) : (installWave fm s).params = s.params := rfl
@[simp] theorem installWave_flags_pend (fm : FastMode) (s : State) : (installWave fm s).flags.pend = s.flags.pend := rfl
@[simp] theorem installWave_flags_pendHalf (fm : FastMode) (s : State) : (installWave fm s).flags.pendHalf = s.flags.pendHalf := rfl
@[simp] theorem installWave_flags_uploadTrunc (fm : FastMode) (s : State) : (installWave fm s).flags.uploadTrunc = s.flags.uploadTrunc := rfl
@[simp] theorem installWave_flags_badCmd (fm : FastMode) (s : State) : (installWave fm s).flags.badCmd = s.flags.badCmd := rfl
@[simp] theorem installWave_flags_enSlow (fm : FastMode) (s : State) : (installWave fm s).flags.enSlow = s.flags.enSlow := rfl
@[simp] theorem installWave_flags_enFast (fm : FastMode) (s : State) : (installWave fm s).flags.enFast = s.flags.enFast := rfl
@[simp] theorem installWave_flags_enNoise (fm : FastMode) (s : State) : (installWave fm s).flags.enNoise = s.flags.enNoise := rfl
@[simp] theorem installWave_flags_enUsq (fm : FastMode) (s : State) : (installWave fm s).flags.enUsq = s.flags.enUsq := rfl
@[simp] theorem installWave_flags_enPwm (fm : FastMode) (s : State) : (installWave fm s).flags.enPwm = s.flags.enPwm := rfl
@[simp] theorem installWave_flags_run (fm : FastMode) (s : State) : (installWave fm s).flags.run = s.flags.run := rfl
@[simp] theorem installWave_flags_priorSync (fm : FastMode) (s : State) : (installWave fm s).flags.priorSync = s.flags.priorSync := rfl
@[simp] theorem installWave_noise (fm : FastMode) (s : State) : (installWave fm s).noise = s.noise := rfl
@[simp] theorem installWave_usq (fm : FastMode) (s : State) : (installWave fm s).usq = s.usq := rfl
@[simp] theorem installWave_out (fm : FastMode) (s : State) : (installWave fm s).out = s.out := rfl
@[simp] theorem installWave_waypoints (fm : FastMode) (s : State) : (installWave fm s).waypoints = s.waypoints := rfl
@[simp] theorem installWave_shadow (fm : FastMode) (s : State) : (installWave fm s).shadow = s.shadow := rfl
@[simp] theorem installWave_trace (fm : FastMode) (s : State) : (installWave fm s).trace = s.trace := rfl
@[simp] theorem installWave_input (fm : FastMode) (s : State) : (installWave fm s).input = s.input := rfl
@[simp] theorem installWave_cfg (fm : FastMode) (s : State) : (installWave fm s).cfg = s.cfg := rfl

/-! ### Phase A writes only the tables, the step sizes of one half, the derived registers, the flags of the commit and SH
(43_downsampler_and_tier_buffers.md R226). -/

@[simp] theorem commitTwoPhase_params (n : Derivation) (s : State) : (commitTwoPhase n s).params = s.params := rfl
@[simp] theorem commitTwoPhase_seq_fastMode (n : Derivation) (s : State) : (commitTwoPhase n s).seq.fastMode = s.seq.fastMode := rfl
@[simp] theorem commitTwoPhase_seq_half (n : Derivation) (s : State) : (commitTwoPhase n s).seq.half = s.seq.half := rfl
@[simp] theorem commitTwoPhase_seq_waveBit (n : Derivation) (s : State) : (commitTwoPhase n s).seq.waveBit = s.seq.waveBit := rfl
@[simp] theorem commitTwoPhase_seq_dacc (n : Derivation) (s : State) : (commitTwoPhase n s).seq.dacc = s.seq.dacc := rfl
@[simp] theorem commitTwoPhase_seq_seqIdx (n : Derivation) (s : State) : (commitTwoPhase n s).seq.seqIdx = s.seq.seqIdx := rfl
@[simp] theorem commitTwoPhase_seq_seqLen (n : Derivation) (s : State) : (commitTwoPhase n s).seq.seqLen = s.seq.seqLen := rfl
@[simp] theorem commitTwoPhase_flags_uploadTrunc (n : Derivation) (s : State) : (commitTwoPhase n s).flags.uploadTrunc = s.flags.uploadTrunc := rfl
@[simp] theorem commitTwoPhase_flags_badCmd (n : Derivation) (s : State) : (commitTwoPhase n s).flags.badCmd = s.flags.badCmd := rfl
@[simp] theorem commitTwoPhase_flags_enSlow (n : Derivation) (s : State) : (commitTwoPhase n s).flags.enSlow = s.flags.enSlow := rfl
@[simp] theorem commitTwoPhase_flags_enFast (n : Derivation) (s : State) : (commitTwoPhase n s).flags.enFast = s.flags.enFast := rfl
@[simp] theorem commitTwoPhase_flags_enNoise (n : Derivation) (s : State) : (commitTwoPhase n s).flags.enNoise = s.flags.enNoise := rfl
@[simp] theorem commitTwoPhase_flags_enUsq (n : Derivation) (s : State) : (commitTwoPhase n s).flags.enUsq = s.flags.enUsq := rfl
@[simp] theorem commitTwoPhase_flags_enPwm (n : Derivation) (s : State) : (commitTwoPhase n s).flags.enPwm = s.flags.enPwm := rfl
@[simp] theorem commitTwoPhase_flags_run (n : Derivation) (s : State) : (commitTwoPhase n s).flags.run = s.flags.run := rfl
@[simp] theorem commitTwoPhase_flags_priorSync (n : Derivation) (s : State) : (commitTwoPhase n s).flags.priorSync = s.flags.priorSync := rfl
@[simp] theorem commitTwoPhase_noise (n : Derivation) (s : State) : (commitTwoPhase n s).noise = s.noise := rfl
@[simp] theorem commitTwoPhase_usq (n : Derivation) (s : State) : (commitTwoPhase n s).usq = s.usq := rfl
@[simp] theorem commitTwoPhase_out (n : Derivation) (s : State) : (commitTwoPhase n s).out = s.out := rfl
@[simp] theorem commitTwoPhase_waypoints (n : Derivation) (s : State) : (commitTwoPhase n s).waypoints = s.waypoints := rfl
@[simp] theorem commitTwoPhase_trace (n : Derivation) (s : State) : (commitTwoPhase n s).trace = s.trace := rfl
@[simp] theorem commitTwoPhase_input (n : Derivation) (s : State) : (commitTwoPhase n s).input = s.input := rfl
@[simp] theorem commitTwoPhase_cfg (n : Derivation) (s : State) : (commitTwoPhase n s).cfg = s.cfg := rfl

/-! ### `DeriveSquare` writes only the square-wave registers, their enables, SQ_OUT and the trace (46_unsynced_square.md R312). -/

@[simp] theorem deriveSquare_params (s : State) : (deriveSquare s).params = s.params := by
  unfold deriveSquare; simp only; split; · rfl
  split <;> rfl
@[simp] theorem deriveSquare_seq (s : State) : (deriveSquare s).seq = s.seq := by
  unfold deriveSquare; simp only; split; · rfl
  split <;> rfl
@[simp] theorem deriveSquare_flags_dutyNot50 (s : State) : (deriveSquare s).flags.dutyNot50 = s.flags.dutyNot50 := by
  unfold deriveSquare; simp only; split; · rfl
  split <;> rfl
@[simp] theorem deriveSquare_flags_extreme (s : State) : (deriveSquare s).flags.extreme = s.flags.extreme := by
  unfold deriveSquare; simp only; split; · rfl
  split <;> rfl
@[simp] theorem deriveSquare_flags_ditherOn (s : State) : (deriveSquare s).flags.ditherOn = s.flags.ditherOn := by
  unfold deriveSquare; simp only; split; · rfl
  split <;> rfl
@[simp] theorem deriveSquare_flags_pend (s : State) : (deriveSquare s).flags.pend = s.flags.pend := by
  unfold deriveSquare; simp only; split; · rfl
  split <;> rfl
@[simp] theorem deriveSquare_flags_pendHalf (s : State) : (deriveSquare s).flags.pendHalf = s.flags.pendHalf := by
  unfold deriveSquare; simp only; split; · rfl
  split <;> rfl
@[simp] theorem deriveSquare_flags_uploadTrunc (s : State) : (deriveSquare s).flags.uploadTrunc = s.flags.uploadTrunc := by
  unfold deriveSquare; simp only; split; · rfl
  split <;> rfl
@[simp] theorem deriveSquare_flags_badCmd (s : State) : (deriveSquare s).flags.badCmd = s.flags.badCmd := by
  unfold deriveSquare; simp only; split; · rfl
  split <;> rfl
@[simp] theorem deriveSquare_flags_enSlow (s : State) : (deriveSquare s).flags.enSlow = s.flags.enSlow := by
  unfold deriveSquare; simp only; split; · rfl
  split <;> rfl
@[simp] theorem deriveSquare_flags_enFast (s : State) : (deriveSquare s).flags.enFast = s.flags.enFast := by
  unfold deriveSquare; simp only; split; · rfl
  split <;> rfl
@[simp] theorem deriveSquare_flags_enNoise (s : State) : (deriveSquare s).flags.enNoise = s.flags.enNoise := by
  unfold deriveSquare; simp only; split; · rfl
  split <;> rfl
@[simp] theorem deriveSquare_flags_run (s : State) : (deriveSquare s).flags.run = s.flags.run := by
  unfold deriveSquare; simp only; split; · rfl
  split <;> rfl
@[simp] theorem deriveSquare_flags_priorSync (s : State) : (deriveSquare s).flags.priorSync = s.flags.priorSync := by
  unfold deriveSquare; simp only; split; · rfl
  split <;> rfl
@[simp] theorem deriveSquare_derived (s : State) : (deriveSquare s).derived = s.derived := by
  unfold deriveSquare; simp only; split; · rfl
  split <;> rfl
@[simp] theorem deriveSquare_noise (s : State) : (deriveSquare s).noise = s.noise := by
  unfold deriveSquare; simp only; split; · rfl
  split <;> rfl
@[simp] theorem deriveSquare_out_dacOut (s : State) : (deriveSquare s).out.dacOut = s.out.dacOut := by
  unfold deriveSquare; simp only; split; · rfl
  split <;> rfl
@[simp] theorem deriveSquare_tables (s : State) : (deriveSquare s).tables = s.tables := by
  unfold deriveSquare; simp only; split; · rfl
  split <;> rfl
@[simp] theorem deriveSquare_waypoints (s : State) : (deriveSquare s).waypoints = s.waypoints := by
  unfold deriveSquare; simp only; split; · rfl
  split <;> rfl
@[simp] theorem deriveSquare_shadow (s : State) : (deriveSquare s).shadow = s.shadow := by
  unfold deriveSquare; simp only; split; · rfl
  split <;> rfl
@[simp] theorem deriveSquare_input (s : State) : (deriveSquare s).input = s.input := by
  unfold deriveSquare; simp only; split; · rfl
  split <;> rfl
@[simp] theorem deriveSquare_cfg (s : State) : (deriveSquare s).cfg = s.cfg := by
  unfold deriveSquare; simp only; split; · rfl
  split <;> rfl

/-! ### `ModeSwitch` never writes a parameter register, a waypoint, a filter, DAC_OUT, RUN or an advisory flag
(40_clock_and_tier.md R130). -/

@[simp] theorem modeSwitch_params (s : State) : (modeSwitch s).params = s.params := by
  unfold modeSwitch; simp only [deriveSquare_params]; split <;> simp [startWave]
@[simp] theorem modeSwitch_flags_pendHalf (s : State) : (modeSwitch s).flags.pendHalf = s.flags.pendHalf := by
  unfold modeSwitch; simp only [deriveSquare_flags_pendHalf]; split <;> simp [startWave]
@[simp] theorem modeSwitch_flags_uploadTrunc (s : State) : (modeSwitch s).flags.uploadTrunc = s.flags.uploadTrunc := by
  unfold modeSwitch; simp only [deriveSquare_flags_uploadTrunc]; split <;> simp [startWave]
@[simp] theorem modeSwitch_flags_badCmd (s : State) : (modeSwitch s).flags.badCmd = s.flags.badCmd := by
  unfold modeSwitch; simp only [deriveSquare_flags_badCmd]; split <;> simp [startWave]
@[simp] theorem modeSwitch_flags_run (s : State) : (modeSwitch s).flags.run = s.flags.run := by
  unfold modeSwitch; simp only [deriveSquare_flags_run]; split <;> simp [startWave]
@[simp] theorem modeSwitch_flags_priorSync (s : State) : (modeSwitch s).flags.priorSync = s.flags.priorSync := by
  unfold modeSwitch; simp only [deriveSquare_flags_priorSync]; split <;> simp [startWave]
@[simp] theorem modeSwitch_noise_nfFast (s : State) : (modeSwitch s).noise.nfFast = s.noise.nfFast := by
  unfold modeSwitch; simp only [deriveSquare_noise]; split <;> simp [startWave]
@[simp] theorem modeSwitch_noise_nfSlow (s : State) : (modeSwitch s).noise.nfSlow = s.noise.nfSlow := by
  unfold modeSwitch; simp only [deriveSquare_noise]; split <;> simp [startWave]
@[simp] theorem modeSwitch_noise_nfAvg (s : State) : (modeSwitch s).noise.nfAvg = s.noise.nfAvg := by
  unfold modeSwitch; simp only [deriveSquare_noise]; split <;> simp [startWave]
@[simp] theorem modeSwitch_noise_nfCnt (s : State) : (modeSwitch s).noise.nfCnt = s.noise.nfCnt := by
  unfold modeSwitch; simp only [deriveSquare_noise]; split <;> simp [startWave]
@[simp] theorem modeSwitch_out_dacOut (s : State) : (modeSwitch s).out.dacOut = s.out.dacOut := by
  unfold modeSwitch; simp only [deriveSquare_out_dacOut]; split <;> simp [startWave]
@[simp] theorem modeSwitch_waypoints (s : State) : (modeSwitch s).waypoints = s.waypoints := by
  unfold modeSwitch; simp only [deriveSquare_waypoints]; split <;> simp [startWave]
@[simp] theorem modeSwitch_shadow (s : State) : (modeSwitch s).shadow = s.shadow := by
  unfold modeSwitch; simp only [deriveSquare_shadow]; split <;> simp [startWave]
@[simp] theorem modeSwitch_input (s : State) : (modeSwitch s).input = s.input := by
  unfold modeSwitch; simp only [deriveSquare_input]; split <;> simp [startWave]
@[simp] theorem modeSwitch_cfg (s : State) : (modeSwitch s).cfg = s.cfg := by
  unfold modeSwitch; simp only [deriveSquare_cfg]; split <;> simp [startWave]

/-! ### `Update` never writes a parameter register, a waypoint, a filter, DAC_OUT, RUN or an advisory flag
(40_clock_and_tier.md R128). -/

@[simp] theorem update_params (s : State) : (update s).params = s.params := by
  unfold update; split; · rfl
  split; · simp
  split <;> simp
@[simp] theorem update_flags_uploadTrunc (s : State) : (update s).flags.uploadTrunc = s.flags.uploadTrunc := by
  unfold update; split; · rfl
  split; · simp
  split <;> simp
@[simp] theorem update_flags_badCmd (s : State) : (update s).flags.badCmd = s.flags.badCmd := by
  unfold update; split; · rfl
  split; · simp
  split <;> simp
@[simp] theorem update_flags_run (s : State) : (update s).flags.run = s.flags.run := by
  unfold update; split; · rfl
  split; · simp
  split <;> simp
@[simp] theorem update_flags_priorSync (s : State) : (update s).flags.priorSync = s.flags.priorSync := by
  unfold update; split; · rfl
  split; · simp
  split <;> simp
@[simp] theorem update_noise_nfFast (s : State) : (update s).noise.nfFast = s.noise.nfFast := by
  unfold update; split; · rfl
  split; · simp
  split <;> simp
@[simp] theorem update_noise_nfSlow (s : State) : (update s).noise.nfSlow = s.noise.nfSlow := by
  unfold update; split; · rfl
  split; · simp
  split <;> simp
@[simp] theorem update_noise_nfAvg (s : State) : (update s).noise.nfAvg = s.noise.nfAvg := by
  unfold update; split; · rfl
  split; · simp
  split <;> simp
@[simp] theorem update_noise_nfCnt (s : State) : (update s).noise.nfCnt = s.noise.nfCnt := by
  unfold update; split; · rfl
  split; · simp
  split <;> simp
@[simp] theorem update_out_dacOut (s : State) : (update s).out.dacOut = s.out.dacOut := by
  unfold update; split; · rfl
  split; · simp
  split <;> simp
@[simp] theorem update_waypoints (s : State) : (update s).waypoints = s.waypoints := by
  unfold update; split; · rfl
  split; · simp
  split <;> simp
@[simp] theorem update_input (s : State) : (update s).input = s.input := by
  unfold update; split; · rfl
  split; · simp
  split <;> simp
@[simp] theorem update_cfg (s : State) : (update s).cfg = s.cfg := by
  unfold update; split; · rfl
  split; · simp
  split <;> simp

end Sys2Proof.Machine
end

