-- ==== Sys2Proof/Laws/Memory.lean ====
section
/-! SUPPORT. Table memories: read after write, and every operation keeps the canonical form. -/

namespace Sys2Proof.Machine

-- One lemma after the other, so that few threads are held at once.
set_option Elab.async false

@[simp] theorem Memory.find_nil (i : Nat) : Memory.find [] i = none := rfl

theorem Memory.find_cons (k : Nat) (c : Cell) (m : Memory) (i : Nat) :
    Memory.find ((k, c) :: m) i = if k = i then some c else Memory.find m i := rfl

/-- Reading the index written gives the value written. -/
@[simp] theorem Memory.find_write_same (m : Memory) (i : Nat) (v : Cell) : (m.write i v).find i = some v := by
  induction m with
  | nil => simp [Memory.write, Memory.find_cons]
  | cons p m ih =>
    obtain ⟨k, c⟩ := p
    unfold Memory.write
    split
    · simp [Memory.find_cons]
    · split
      · simp [Memory.find_cons]
      · rw [Memory.find_cons, if_neg (by omega), ih]

/-- Reading any other index gives what it gave before the write. -/
theorem Memory.find_write_other (m : Memory) (i j : Nat) (v : Cell) (h : j ≠ i) : (m.write i v).find j = m.find j := by
  induction m with
  | nil => simp [Memory.write, Memory.find_cons, h.symm]
  | cons p m ih =>
    obtain ⟨k, c⟩ := p
    unfold Memory.write
    split
    · rw [Memory.find_cons, if_neg (by omega)]
    · split
      · subst_vars
        rw [Memory.find_cons, Memory.find_cons, if_neg (by omega), if_neg (by omega)]
      · rw [Memory.find_cons, Memory.find_cons, ih]

theorem Memory.rises_weaken (m : Memory) (lo lo' : Nat) (h : lo' ≤ lo) (hm : Memory.rises lo m = true) :
    Memory.rises lo' m = true := by
  cases m with
  | nil => rfl
  | cons p m =>
    obtain ⟨k, c⟩ := p
    simp only [Memory.rises, Bool.and_eq_true, decide_eq_true_eq] at hm ⊢
    exact ⟨by omega, hm.2⟩

theorem Memory.rises_write (m : Memory) (lo i : Nat) (v : Cell) (hi : lo ≤ i) (hm : Memory.rises lo m = true) :
    Memory.rises lo (m.write i v) = true := by
  induction m generalizing lo with
  | nil => simp [Memory.write, Memory.rises, hi]
  | cons p m ih =>
    obtain ⟨k, c⟩ := p
    simp only [Memory.rises, Bool.and_eq_true, decide_eq_true_eq] at hm
    unfold Memory.write
    split
    · simp only [Memory.rises, Bool.and_eq_true, decide_eq_true_eq]
      exact ⟨hi, by omega, hm.2⟩
    · split
      · subst_vars
        simp only [Memory.rises, Bool.and_eq_true, decide_eq_true_eq]
        exact ⟨hi, hm.2⟩
      · simp only [Memory.rises, Bool.and_eq_true, decide_eq_true_eq]
        exact ⟨hm.1, ih (k + 1) (by omega) hm.2⟩

/-- The entries after a write are the one written and old ones. -/
theorem Memory.mem_write (m : Memory) (i : Nat) (v : Cell) (p : Nat × Cell) (h : p ∈ m.write i v) :
    p = (i, v) ∨ p ∈ m := by
  induction m with
  | nil => simpa [Memory.write] using h
  | cons q m ih =>
    obtain ⟨k, c⟩ := q
    unfold Memory.write at h
    split at h
    · simp only [List.mem_cons] at h ⊢
      tauto
    · split at h
      · simp only [List.mem_cons] at h ⊢
        tauto
      · simp only [List.mem_cons] at h ⊢
        rcases h with h | h
        · tauto
        · rcases ih h with h | h <;> tauto

theorem Memory.wf_iff (size : Nat) (m : Memory) :
    Memory.wf size m = true ↔ Memory.rises 0 m = true ∧ ∀ p ∈ m, p.1 < size := by
  simp [Memory.wf]

/-- A write below the size keeps the canonical form. -/
theorem Memory.wf_write (size : Nat) (m : Memory) (i : Nat) (v : Cell) (hi : i < size)
    (hm : Memory.wf size m = true) : Memory.wf size (m.write i v) = true := by
  rw [Memory.wf_iff] at hm ⊢
  refine ⟨Memory.rises_write m 0 i v (Nat.zero_le i) hm.1, fun p hp => ?_⟩
  rcases Memory.mem_write m i v p hp with rfl | h
  · exact hi
  · exact hm.2 p h

@[simp] theorem Memory.wf_nil (size : Nat) : Memory.wf size [] = true := rfl

theorem Memory.rises_fromIndex (cells : List Cell) (i : Nat) : Memory.rises i (Memory.fromIndex i cells) = true := by
  induction cells generalizing i with
  | nil => rfl
  | cons c cs ih => simp [Memory.fromIndex, Memory.rises, ih]

theorem Memory.mem_fromIndex (cells : List Cell) (i : Nat) (p : Nat × Cell) (h : p ∈ Memory.fromIndex i cells) :
    i ≤ p.1 ∧ p.1 < i + cells.length ∧ p.2 ∈ cells := by
  induction cells generalizing i with
  | nil => simp [Memory.fromIndex] at h
  | cons c cs ih =>
    simp only [Memory.fromIndex, List.mem_cons] at h
    rcases h with rfl | h
    · simp
    · have := ih (i + 1) h
      simp only [List.length_cons, List.mem_cons]
      exact ⟨by omega, by omega, .inr this.2.2⟩

theorem Memory.find_fromIndex (cells : List Cell) (i k : Nat) (h : i ≤ k) :
    (Memory.fromIndex i cells).find k = cells[k - i]? := by
  induction cells generalizing i with
  | nil => simp [Memory.fromIndex]
  | cons c cs ih =>
    rw [Memory.fromIndex, Memory.find_cons]
    split
    · subst_vars; simp
    · rw [ih (i + 1) (by omega), show k - i = (k - (i + 1)) + 1 by omega, List.getElem?_cons_succ]

/-- A table written whole reads back cell by cell. -/
@[simp] theorem Memory.find_ofCells (cells : List Cell) (k : Nat) : (Memory.ofCells cells).find k = cells[k]? := by
  rw [Memory.ofCells, Memory.find_fromIndex cells 0 k (Nat.zero_le k), Nat.sub_zero]

/-- A table written whole is in canonical form. -/
theorem Memory.wf_ofCells (size : Nat) (cells : List Cell) (h : cells.length ≤ size) :
    Memory.wf size (Memory.ofCells cells) = true := by
  rw [Memory.wf_iff]
  refine ⟨Memory.rises_fromIndex cells 0, fun p hp => ?_⟩
  have := Memory.mem_fromIndex cells 0 p hp
  omega

theorem Memory.mem_ofCells (cells : List Cell) (p : Nat × Cell) (h : p ∈ Memory.ofCells cells) : p.2 ∈ cells :=
  (Memory.mem_fromIndex cells 0 p h).2.2

/-- A table written whole has all its cells written. -/
theorem Memory.filled_ofCells (n : Nat) (cells : List Cell) (h : n ≤ cells.length) :
    Memory.filled n (Memory.ofCells cells) := by
  intro i hi
  rw [Memory.find_ofCells, List.getElem?_eq_getElem (by omega)]
  rfl

/-- A write of a sample value keeps every cell a sample value. -/
theorem cellsAreSamples_ofCells (cells : List Cell) (h : ∀ c ∈ cells, c.toNat ≤ 4095) :
    CellsAreSamples (Memory.ofCells cells) := fun p hp => h p.2 (Memory.mem_ofCells cells p hp)

@[simp] theorem cellsAreSamples_nil : CellsAreSamples [] := fun _ h => by cases h

/-- Writing a cell keeps the cells written, and adds the one written. -/
theorem Memory.filled_write (n : Nat) (m : Memory) (v : Cell) (h : Memory.filled n m) :
    Memory.filled (n + 1) (m.write n v) := by
  intro i hi
  by_cases hn : i = n
  · subst hn; simp
  · rw [Memory.find_write_other m n i v hn]
    exact h i (by omega)

/-- The memories after reset are in canonical form. -/
theorem resetWith_tables_wf (c : Cfg) (sp : Space) :
    Memory.wf (spaceSize sp) (tableOf (State.resetWith c) sp) = true := by
  rcases sp with h | h | ⟨t, h⟩ | _
  · cases h <;> rfl
  · cases h <;> rfl
  · cases t <;> cases h <;> rfl
  · rfl

/-- A cell that is listed is what a read gives. -/
theorem readCell_of_find (s : State) (sp : Space) (i : Nat) (c : Cell) (h : Memory.find (tableOf s sp) i = some c) :
    readCell s sp i = c := by
  simp [readCell, h]

/-- A read depends on the table's memory alone. -/
theorem readCell_congr (s t : State) (sp : Space) (i : Nat) (h : tableOf t sp = tableOf s sp) :
    readCell t sp i = readCell s sp i := by
  simp [readCell, h]

end Sys2Proof.Machine
end

