-- ==== Sys2Proof/Laws/Ops.lean ====
section
/-! SUPPORT. What each shared operation does, once: the provers cite these lemmas instead of unfolding the operation. -/

namespace Sys2Proof.Machine

/-! ### The commit in two phases (43_downsampler_and_tier_buffers.md R225 to R227) -/

/-- With nothing pending, phase B does nothing. -/
theorem finishPending_of_idle (s : State) (h : s.flags.pend = false) : finishPending s = s := by
  simp [finishPending, h]

/-- With a commit pending, phase B commits SH to the half it holds and clears PEND. -/
theorem finishPending_of_pending (s : State) (h : s.flags.pend = true) :
    finishPending s = clearPending (commitHalf s.shadow s.flags.pendHalf s) := by
  simp [finishPending, h]

/-- After phase B nothing is pending. -/
@[simp] theorem finishPending_flags_pend (s : State) : (finishPending s).flags.pend = false := by
  cases h : s.flags.pend
  · rw [finishPending_of_idle s h, h]
  · rw [finishPending_of_pending s h]; rfl

/-- Phase B twice is phase B once. -/
@[simp] theorem finishPending_idem (s : State) : finishPending (finishPending s) = finishPending s :=
  finishPending_of_idle _ (finishPending_flags_pend s)

/-- The tier buffers after `CommitHalf`: the active pair's half, if there is an active pair. -/
theorem commitHalf_tb_get (r : HalfRecord) (h : Half) (s : State) (k : Tier) (j : Half) :
    ((commitHalf r h s).tables.tb.get k).get j =
      if s.seq.fastMode = .fast k ∧ j = h then r.tb else (s.tables.tb.get k).get j := by
  have e : (commitHalf r h s).tables.tb = (commitTables r h s.seq.fastMode s.tables).tb := rfl
  rw [e]
  cases hf : s.seq.fastMode with
  | slow => simp [commitTables]
  | fast t =>
    simp only [commitTables, PerTier.get_set, FastMode.fast.injEq]
    by_cases hk : k = t
    · subst hk
      simp only [if_true, PerHalf.get_set, true_and]
    · rw [if_neg hk, if_neg (fun h => hk h.1.symm)]

/-- `CommitHalf` replaces the half of the active tier's buffer. -/
theorem commitHalf_tb_active (r : HalfRecord) (h : Half) (s : State) (k : Tier) (hk : s.seq.fastMode = .fast k) :
    ((commitHalf r h s).tables.tb.get k).get h = r.tb := by
  rw [commitHalf_tb_get, if_pos ⟨hk, rfl⟩]

/-- `CommitHalf` keeps every other half of a tier buffer. -/
theorem commitHalf_tb_kept (r : HalfRecord) (h : Half) (s : State) (k : Tier) (j : Half)
    (hk : ¬ (s.seq.fastMode = .fast k ∧ j = h)) :
    ((commitHalf r h s).tables.tb.get k).get j = (s.tables.tb.get k).get j := by
  rw [commitHalf_tb_get, if_neg hk]

/-! ### Update and ModeSwitch (40_clock_and_tier.md R128, R130) -/

/-- SHAPE names noise exactly from 4 on (10_state.md R28, log 7). -/
theorem shapeOf_eq_noise_iff (p : Params) : shapeOf p = .noise ↔ 4 ≤ p.shape.toNat := by
  unfold shapeOf
  split
  all_goals simp_all
  omega

theorem shapeOf_ne_noise_of_lt (p : Params) (h : p.shape.toNat < 4) : shapeOf p ≠ .noise := by
  rw [Ne, shapeOf_eq_noise_iff]; omega

/-- Before APPLY, `Update` does nothing. -/
theorem update_of_stopped (s : State) (h : s.flags.run = false) : update s = s := by simp [update, h]

/-- In noise mode, `Update` writes the noise coefficients. -/
theorem update_of_noise (s : State) (h : s.flags.run = true) (hn : shapeOf s.params = .noise) :
    update s = noiseCoeffs s := by
  simp [update, h, hn]

/-- In the tier already running, `Update` is phase A of a commit. -/
theorem update_of_sameTier (s : State) (h : s.flags.run = true) (hn : shapeOf s.params ≠ .noise)
    (ht : selectTier s = s.seq.fastMode) : update s = commitTwoPhase (derive s s.seq.fastMode) s := by
  simp [update, h, hn, ht]

/-- When the tier changes, `Update` is the mode switch. -/
theorem update_of_newTier (s : State) (h : s.flags.run = true) (hn : shapeOf s.params ≠ .noise)
    (ht : selectTier s ≠ s.seq.fastMode) : update s = modeSwitch s := by
  simp [update, h, hn, ht]

/-- Everything `Update` can do. -/
theorem update_cases (s : State) :
    (s.flags.run = false ∧ update s = s) ∨
    (s.flags.run = true ∧ shapeOf s.params = .noise ∧ update s = noiseCoeffs s) ∨
    (s.flags.run = true ∧ shapeOf s.params ≠ .noise ∧ selectTier s = s.seq.fastMode ∧
      update s = commitTwoPhase (derive s s.seq.fastMode) s) ∨
    (s.flags.run = true ∧ shapeOf s.params ≠ .noise ∧ selectTier s ≠ s.seq.fastMode ∧ update s = modeSwitch s) := by
  cases hr : s.flags.run
  · exact .inl ⟨rfl, update_of_stopped s hr⟩
  · by_cases hn : shapeOf s.params = .noise
    · exact .inr (.inl ⟨rfl, hn, update_of_noise s hr hn⟩)
    · by_cases ht : selectTier s = s.seq.fastMode
      · exact .inr (.inr (.inl ⟨rfl, hn, ht, update_of_sameTier s hr hn ht⟩))
      · exact .inr (.inr (.inr ⟨rfl, hn, ht, update_of_newTier s hr hn ht⟩))

/-- The mode switch into noise. -/
theorem modeSwitch_of_noise (s : State) (hn : shapeOf s.params = .noise) :
    modeSwitch s = deriveSquare (startNoise (noiseCoeffs (teardown s))) := by
  simp [modeSwitch, hn]

/-- The mode switch into a wave. -/
theorem modeSwitch_of_wave (s : State) (hn : shapeOf s.params ≠ .noise) :
    modeSwitch s = deriveSquare (syncLevel (enableWave (selectTier s)
      (installWave (selectTier s) (noiseCoeffs (teardown s))))) := by
  have h1 : shapeOf (noiseCoeffs (teardown s)).params ≠ .noise := by simpa using hn
  have h2 : selectTier (noiseCoeffs (teardown s)) = selectTier s := by simp [selectTier]
  simp only [modeSwitch, startWave]
  rw [if_neg h1, h2]

/-! ### The square wave (45_sequencer_and_sync_square.md R285, 46_unsynced_square.md R312) -/

theorem boundary_of_unsynced (k : BoundaryKind) (s : State) (h : s.params.sync = 0) : boundary k s = s := by
  unfold boundary
  rw [if_pos h]

theorem boundary_flip (s : State) (h : s.params.sync ≠ 0) :
    boundary .flip s = driveSq (level s.seq.half) s.derived.sqDelay s := by
  unfold boundary
  rw [if_neg h]

theorem boundary_noflip (s : State) (h : s.params.sync ≠ 0) :
    boundary .noflip s = emit (.sqPulse s.derived.sqDelay) s := by
  unfold boundary
  rw [if_neg h]

/-- Everything `DeriveSquare` can do. -/
theorem deriveSquare_cases (s : State) :
    ((s.params.sync = 1 ∨ s.flags.run = false) ∧ deriveSquare s = squareOff s) ∨
    (s.params.sync ≠ 1 ∧ s.flags.run = true ∧ s.cfg.usqT3 ≤ s.params.qFreq.toNat ∧
      deriveSquare s = startPwm s.params.qFreq.toNat s.params.qDuty.toNat (squareOff s)) ∨
    (s.params.sync ≠ 1 ∧ s.flags.run = true ∧ s.params.qFreq.toNat < s.cfg.usqT3 ∧
      deriveSquare s = startAccumulator s.params.qFreq.toNat s.params.qDuty.toNat (squareOff s)) := by
  have e : deriveSquare s = if s.params.sync = 1 ∨ s.flags.run = false then squareOff s
      else if s.cfg.usqT3 ≤ s.params.qFreq.toNat then
        startPwm s.params.qFreq.toNat s.params.qDuty.toNat (squareOff s)
      else startAccumulator s.params.qFreq.toNat s.params.qDuty.toNat (squareOff s) := rfl
  rw [e]
  by_cases h : s.params.sync = 1 ∨ s.flags.run = false
  · exact .inl ⟨h, if_pos h⟩
  · rw [if_neg h]
    have h' := not_or.mp h
    have hr : s.flags.run = true := by simpa using h'.2
    by_cases hf : s.cfg.usqT3 ≤ s.params.qFreq.toNat
    · exact .inr (.inl ⟨h'.1, hr, hf, if_pos hf⟩)
    · exact .inr (.inr ⟨h'.1, hr, by omega, if_neg hf⟩)

/-! ### The trace of a wave command -/

theorem addsOnlySquareLevels_refl (s : State) : AddsOnlySquareLevels s s := ⟨[], by simp, by simp⟩

theorem addsOnlySquareLevels_of_eq (s t : State) (h : t.trace = s.trace) : AddsOnlySquareLevels s t :=
  ⟨[], by simp [h], by simp⟩

theorem addsOnlySquareLevels_trans (s t u : State) (h1 : AddsOnlySquareLevels s t) (h2 : AddsOnlySquareLevels t u) :
    AddsOnlySquareLevels s u := by
  obtain ⟨e1, h1, p1⟩ := h1
  obtain ⟨e2, h2, p2⟩ := h2
  refine ⟨e1 ++ e2, by rw [h2, h1, List.append_assoc], fun e he => ?_⟩
  rcases List.mem_append.mp he with h | h
  · exact p1 e h
  · exact p2 e h

theorem addsOnlySquareLevels_deriveSquare (s : State) : AddsOnlySquareLevels s (deriveSquare s) := by
  rcases deriveSquare_cases s with ⟨_, h⟩ | ⟨_, _, _, h⟩ | ⟨_, _, _, h⟩ <;> rw [h]
  · exact addsOnlySquareLevels_of_eq _ _ rfl
  · exact addsOnlySquareLevels_of_eq _ _ rfl
  · exact ⟨[_], rfl, fun e he => ⟨_, by simpa using he⟩⟩

theorem addsOnlySquareLevels_syncLevel (s : State) : AddsOnlySquareLevels s (syncLevel s) := by
  unfold syncLevel
  split
  · exact ⟨[_], rfl, fun e he => ⟨_, by simpa using he⟩⟩
  · exact addsOnlySquareLevels_refl s

theorem addsOnlySquareLevels_modeSwitch (s : State) : AddsOnlySquareLevels s (modeSwitch s) := by
  by_cases hn : shapeOf s.params = .noise
  · rw [modeSwitch_of_noise s hn]
    exact addsOnlySquareLevels_trans _ _ _ (addsOnlySquareLevels_of_eq _ _ rfl) (addsOnlySquareLevels_deriveSquare _)
  · rw [modeSwitch_of_wave s hn]
    refine addsOnlySquareLevels_trans _ _ _ ?_ (addsOnlySquareLevels_deriveSquare _)
    refine addsOnlySquareLevels_trans _ _ _ ?_ (addsOnlySquareLevels_syncLevel _)
    exact addsOnlySquareLevels_of_eq _ _ (by simp)

theorem addsOnlySquareLevels_update (s : State) : AddsOnlySquareLevels s (update s) := by
  rcases update_cases s with ⟨_, h⟩ | ⟨_, _, h⟩ | ⟨_, _, _, h⟩ | ⟨_, _, _, h⟩ <;> rw [h]
  · exact addsOnlySquareLevels_refl s
  · exact addsOnlySquareLevels_of_eq _ _ rfl
  · exact addsOnlySquareLevels_of_eq _ _ rfl
  · exact addsOnlySquareLevels_modeSwitch s

/-- `Update` leaves as it was everything `HostFrame` names. -/
theorem hostFrame_update (s : State) : HostFrame s (update s) := by
  constructor <;> first | exact addsOnlySquareLevels_update s | simp

/-- `ModeSwitch` leaves as it was everything `HostFrame` names. -/
theorem hostFrame_modeSwitch (s : State) : HostFrame s (modeSwitch s) := by
  constructor <;> first | exact addsOnlySquareLevels_modeSwitch s | simp

/-- `DeriveSquare` leaves as it was everything `HostFrame` names. -/
theorem hostFrame_deriveSquare (s : State) : HostFrame s (deriveSquare s) := by
  constructor <;> first | exact addsOnlySquareLevels_deriveSquare s | simp

theorem hostFrame_trans (s t u : State) (h1 : HostFrame s t) (h2 : HostFrame t u) : HostFrame s u := by
  constructor <;> first
    | exact addsOnlySquareLevels_trans _ _ _ h1.trace h2.trace
    | simp [h1.waypoints, h2.waypoints, h1.nfFast, h2.nfFast, h1.nfSlow, h2.nfSlow, h1.nfAvg, h2.nfAvg, h1.nfCnt,
        h2.nfCnt, h1.dacOut, h2.dacOut, h1.run, h2.run, h1.badCmd, h2.badCmd, h1.uploadTrunc, h2.uploadTrunc,
        h1.priorSync, h2.priorSync, h1.input, h2.input, h1.cfg, h2.cfg]

/-- `FinishPending` leaves as it was everything `HostFrame` names. -/
theorem hostFrame_finishPending (s : State) : HostFrame s (finishPending s) := by
  constructor <;> first | exact addsOnlySquareLevels_of_eq _ _ (by simp) | simp

/-! ### The derived tables (41_wavetable_builder.md R185, 43_downsampler_and_tier_buffers.md R211 to R217) -/

@[simp] theorem waveCells_length (p : Params) (src : List Int) (h : Half) : (waveCells p src h).length = tableAlloc := by
  simp [waveCells]

@[simp] theorem reduceCells_length (wf : List Cell) : (reduceCells wf).length = redLen := by simp [reduceCells]

@[simp] theorem buildTB_length (rt : List Cell) (d : Nat) (t : Tier) : (buildTB rt d t).length = samplesPerCycle t := by
  unfold buildTB; split <;> simp

/-- Cell `i` of a rendered half (41_wavetable_builder.md R185). -/
theorem waveCells_getElem? (p : Params) (src : List Int) (h : Half) (i : Nat) (hi : i < 4097) :
    (waveCells p src h)[i]? = some (levelCell (waveLevel p src h (min i 4095))) := by
  simp [waveCells, tableAlloc, hi]

/-- Every rendered cell is a sample value (41_wavetable_builder.md R160, 20_memory.md R64). -/
theorem waveCells_samples (p : Params) (src : List Int) (h : Half) : ∀ c ∈ waveCells p src h, c.toNat ≤ 4095 := by
  intro c hc
  obtain ⟨i, _, rfl⟩ := List.mem_map.mp hc
  exact levelCell_toNat_le _

theorem getD_samples (l : List Cell) (hl : ∀ c ∈ l, c.toNat ≤ 4095) (i : Nat) : (l.getD i 0).toNat ≤ 4095 := by
  rw [List.getD_eq_getElem?_getD]
  cases h : l[i]? with
  | none => simp
  | some c => exact hl c (List.mem_of_getElem? h)

theorem reduceCells_samples (wf : List Cell) (h : ∀ c ∈ wf, c.toNat ≤ 4095) :
    ∀ c ∈ reduceCells wf, c.toNat ≤ 4095 := by
  intro c hc
  obtain ⟨i, _, rfl⟩ := List.mem_map.mp hc
  exact getD_samples wf h _

theorem buildTB_samples (rt : List Cell) (h : ∀ c ∈ rt, c.toNat ≤ 4095) (d : Nat) (t : Tier) :
    ∀ c ∈ buildTB rt d t, c.toNat ≤ 4095 := by
  intro c hc
  unfold buildTB at hc
  split at hc
  · rw [List.eq_of_mem_replicate hc]; decide
  · obtain ⟨i, _, rfl⟩ := List.mem_map.mp hc
    exact getD_samples rt h _

@[simp] theorem buildWave_get (s : State) (fm : FastMode) (h : Half) :
    (buildWave s fm).get h = waveCells s.params (arbSrc s.cfg.arbSharp fm (positions s)) h := by
  simp [buildWave]

@[simp] theorem derive_halves_get (s : State) (fm : FastMode) (h : Half) :
    (derive s fm).halves.get h = halfRecordOf s fm (rateNumbers s fm) h := by
  simp [derive]

/-! ### What a derivation depends on (40_clock_and_tier.md R129) -/

/-- `ArbSrc`'s input depends on the waypoints alone. -/
theorem positions_congr (s u : State) (hw : u.waypoints = s.waypoints) : positions u = positions s := by
  unfold positions wpEntries
  rw [hw]
  congr 1
  apply List.map_congr_left
  intro i _
  exact readCell_congr _ _ _ _ (by simp [tableOf, hw])

/-- `Derive` reads the parameter registers, the waypoints and the configuration alone. -/
theorem derive_congr (s u : State) (fm : FastMode) (hp : u.params = s.params) (hw : u.waypoints = s.waypoints)
    (hc : u.cfg = s.cfg) : derive u fm = derive s fm := by
  have hr : rateNumbers u fm = rateNumbers s fm := by simp [rateNumbers, hp, hc]
  have hb : buildWave u fm = buildWave s fm := by simp [buildWave, positions_congr s u hw, hp, hc]
  have hco : ∀ r, commonOf u fm r = commonOf s fm r := fun r => by simp [commonOf, hp, hc]
  have hha : ∀ r, halfRecordOf u fm r = halfRecordOf s fm r := fun r => by
    funext h
    have ht : ∀ rt, tbFor u fm rt h = tbFor s fm rt h := fun rt => by simp [tbFor, hp, hc]
    simp [halfRecordOf, hb, ht, hp, hc]
  simp only [derive, hr, hco, hha]

@[simp] theorem derive_common (s : State) (fm : FastMode) : (derive s fm).common = commonOf s fm (rateNumbers s fm) := rfl

/-- Both halves of the tables after installing a derivation, and what else it puts there. -/
theorem installWave_eq (fm : FastMode) (s : State) :
    (∀ h, (installWave fm s).tables.wf.get h = (halfRecordOf s fm (rateNumbers s fm) h).wf) ∧
    (∀ h, (installWave fm s).tables.rt.get h = (halfRecordOf s fm (rateNumbers s fm) h).rt) ∧
    (∀ h, (installWave fm s).tables.dutyT.get h = (halfRecordOf s fm (rateNumbers s fm) h).duty) ∧
    (∀ h, (installWave fm s).seq.incBase.get h = (halfRecordOf s fm (rateNumbers s fm) h).incBase) ∧
    (∀ h, (installWave fm s).seq.incFrac.get h = (halfRecordOf s fm (rateNumbers s fm) h).incFrac) ∧
    (∀ h, (installWave fm s).seq.ratio.get h = (halfRecordOf s fm (rateNumbers s fm) h).ratio) ∧
    (∀ h, (installWave fm s).seq.increment.get h = (halfRecordOf s fm (rateNumbers s fm) h).increment) ∧
    (∀ k h, ((installWave fm s).tables.tb.get k).get h =
      if fm = .fast k then (halfRecordOf s fm (rateNumbers s fm) h).tb else (s.tables.tb.get k).get h) ∧
    (installWave fm s).derived = (commonOf s fm (rateNumbers s fm)).regs ∧
    (installWave fm s).flags.extreme = (rateNumbers s fm).extreme ∧
    (installWave fm s).flags.dutyNot50 = isNot50 (rateNumbers s fm).dutyA ∧
    (installWave fm s).flags.ditherOn = isDither fm s.params.fTarget.toNat := by
  have e := derive_congr s { s with seq := { s.seq with fastMode := fm } } fm rfl rfl rfl
  have h0 := derive_halves_get s fm .first
  have h1 := derive_halves_get s fm .second
  have hc := derive_common s fm
  unfold installWave
  simp only [e]
  generalize derive s fm = n at h0 h1 hc
  simp only [PerHalf.get] at h0 h1
  simp only [hc, h0, h1]
  generalize halfRecordOf s fm (rateNumbers s fm) = r
  generalize rateNumbers s fm = x
  refine ⟨?_, ?_, ?_, ?_, ?_, ?_, ?_, ?_, rfl, rfl, rfl, rfl⟩
  · intro h; cases h <;> rfl
  · intro h; cases h <;> rfl
  · intro h; cases h <;> rfl
  · intro h; cases h <;> rfl
  · intro h; cases h <;> rfl
  · intro h; cases h <;> rfl
  · intro h; cases h <;> rfl
  · intro k h
    cases fm with
    | slow => cases h <;> rfl
    | fast t => cases t <;> cases k <;> cases h <;> rfl

/-- What installing a derivation does to the position in the wave (40_clock_and_tier.md R130). -/
theorem installWave_seq (fm : FastMode) (s : State) :
    (installWave fm s).seq.fastMode = fm ∧ (installWave fm s).seq.half = s.seq.half ∧
    (installWave fm s).seq.waveBit = 0 ∧ (installWave fm s).seq.dacc = ⟨0, 0⟩ ∧ (installWave fm s).seq.seqIdx = 0 ∧
    (installWave fm s).seq.seqLen = s.seq.seqLen := by
  unfold installWave
  generalize derive _ fm = n
  exact ⟨rfl, rfl, rfl, rfl, rfl, rfl⟩

/-- Starting the slow path. -/
theorem enableWave_slow (s : State) :
    (enableWave .slow s).seq.half = (if 0 < s.derived.dutyA.toNat then .first else .second) ∧
    (enableWave .slow s).seq.seqLen = s.seq.seqLen ∧
    (enableWave .slow s).flags.enSlow = true ∧ (enableWave .slow s).flags.enFast = s.flags.enFast :=
  ⟨rfl, rfl, rfl, rfl⟩

/-- Starting the fast path in tier `t`. -/
theorem enableWave_fast (t : Tier) (s : State) :
    (enableWave (.fast t) s).seq.half = startHalf s t ∧
    (enableWave (.fast t) s).seq.seqLen = BitVec.ofNat 8 (max (dutyCount s (startHalf s t) t) 1) ∧
    (enableWave (.fast t) s).flags.enSlow = s.flags.enSlow ∧ (enableWave (.fast t) s).flags.enFast = true :=
  ⟨rfl, rfl, rfl, rfl⟩

/-! ### The duty counts (43_downsampler_and_tier_buffers.md R213, R214) -/

theorem firstCount_le (c : Cfg) (hc : c.valid = true) (d : Nat) (t : Tier) : firstCount c d t ≤ samplesPerCycle t := by
  have hm := Cfg.valid_minMaxDuty c hc
  have hs := samplesPerCycle_ge t
  unfold firstCount
  split
  · omega
  · split
    · omega
    · have := clampNat_mem (fdiv (d * samplesPerCycle t + 500000) 1000000) c.minMaxDuty
        (samplesPerCycle t - c.minMaxDuty) (by omega)
      omega

/-- The two counts of a tier make a full cycle. -/
theorem countFor_sum (c : Cfg) (hc : c.valid = true) (d : Nat) (t : Tier) :
    countFor c d .first t + countFor c d .second t = samplesPerCycle t := by
  have := firstCount_le c hc d t
  simp only [countFor]
  omega

theorem countFor_le (c : Cfg) (hc : c.valid = true) (d : Nat) (h : Half) (t : Tier) :
    countFor c d h t ≤ samplesPerCycle t := by
  have := countFor_sum c hc d t
  cases h <;> omega

/-- A duty count fits its table cell. -/
theorem dutyCells_get (c : Cfg) (hc : c.valid = true) (d : Nat) (h : Half) (t : Tier) :
    ((dutyCells c d h).get t).toNat = countFor c d h t := by
  have h1 := countFor_le c hc d h t
  have h2 := samplesPerCycle_le t
  rw [dutyCells, PerTier.get_make, BitVec.toNat_ofNat, Nat.mod_eq_of_lt (by omega)]

/-! ### What a derived half holds, and what committing it does to the tables -/

theorem halfRecordOf_wf_canonical (s : State) (fm : FastMode) (r : RateNumbers) (h : Half) :
    Memory.wf tableAlloc (halfRecordOf s fm r h).wf = true := by
  apply Memory.wf_ofCells; rw [buildWave_get]; simp

theorem halfRecordOf_rt_canonical (s : State) (fm : FastMode) (r : RateNumbers) (h : Half) :
    Memory.wf redLen (halfRecordOf s fm r h).rt = true := by
  apply Memory.wf_ofCells; simp

theorem halfRecordOf_tb_canonical (s : State) (t : Tier) (r : RateNumbers) (h : Half) :
    Memory.wf (samplesPerCycle t) (halfRecordOf s (.fast t) r h).tb = true := by
  apply Memory.wf_ofCells; simp

theorem halfRecordOf_wf_filled (s : State) (fm : FastMode) (r : RateNumbers) (h : Half) :
    Memory.filled tableAlloc (halfRecordOf s fm r h).wf := by
  apply Memory.filled_ofCells; rw [buildWave_get]; simp

theorem halfRecordOf_tb_filled (s : State) (t : Tier) (r : RateNumbers) (h : Half) :
    Memory.filled (samplesPerCycle t) (halfRecordOf s (.fast t) r h).tb := by
  apply Memory.filled_ofCells; simp

theorem halfRecordOf_wf_samples (s : State) (fm : FastMode) (r : RateNumbers) (h : Half) :
    CellsAreSamples (halfRecordOf s fm r h).wf := by
  apply cellsAreSamples_ofCells
  rw [buildWave_get]
  exact waveCells_samples _ _ _

theorem halfRecordOf_rt_samples (s : State) (fm : FastMode) (r : RateNumbers) (h : Half) :
    CellsAreSamples (halfRecordOf s fm r h).rt := by
  apply cellsAreSamples_ofCells
  apply reduceCells_samples
  rw [buildWave_get]
  exact waveCells_samples _ _ _

theorem halfRecordOf_tb_samples (s : State) (fm : FastMode) (r : RateNumbers) (h : Half) :
    CellsAreSamples (halfRecordOf s fm r h).tb := by
  cases fm with
  | slow => exact cellsAreSamples_nil
  | fast t =>
    apply cellsAreSamples_ofCells
    apply buildTB_samples
    apply reduceCells_samples
    rw [buildWave_get]
    exact waveCells_samples _ _ _

@[simp] theorem halfRecordOf_duty (s : State) (fm : FastMode) (r : RateNumbers) (h : Half) :
    (halfRecordOf s fm r h).duty = dutyCells s.cfg s.params.duty.toNat h := rfl

theorem halfRecordOf_incFrac_lt (s : State) (fm : FastMode) (r : RateNumbers) (h : Half) :
    (halfRecordOf s fm r h).incFrac < 1000 := Nat.mod_lt _ (by omega)

theorem commitHalf_wf (r : HalfRecord) (h : Half) (s : State) :
    (commitHalf r h s).tables.wf = s.tables.wf.set h r.wf := rfl

theorem commitHalf_rt (r : HalfRecord) (h : Half) (s : State) :
    (commitHalf r h s).tables.rt = s.tables.rt.set h r.rt := rfl

theorem commitHalf_dutyT (r : HalfRecord) (h : Half) (s : State) :
    (commitHalf r h s).tables.dutyT = s.tables.dutyT.set h r.duty := rfl

/-! ### What phase A and APPLY come to (43_downsampler_and_tier_buffers.md R226, 48_system.md R365) -/

/-- Phase A commits the half that is not being output, and nothing else of the tables and step sizes. -/
theorem commitTwoPhase_eq (n : Derivation) (s : State) :
    (commitTwoPhase n s).tables =
      commitTables (n.halves.get s.seq.half.other) s.seq.half.other s.seq.fastMode s.tables ∧
    (commitTwoPhase n s).seq = commitSteps (n.halves.get s.seq.half.other) s.seq.half.other s.seq ∧
    (commitTwoPhase n s).derived = n.common.regs ∧ (commitTwoPhase n s).shadow = n.halves.get s.seq.half :=
  ⟨rfl, rfl, rfl, rfl⟩

/-- APPLY with a wave family runs the wave branch of the mode switch. -/
theorem exec_applyAll_of_wave (s : State) (hs : s.params.shape.toNat < 4) :
    exec .applyAll s = .next (deriveSquare (syncLevel (enableWave (selectTier s) (installWave (selectTier s)
      (noiseCoeffs (teardown { finishPending s with
        flags := { (finishPending s).flags with run := true } })))))) := by
  have hn := shapeOf_ne_noise_of_lt _ hs
  have hold : holdSync (finishPending s) = finishPending s := by
    unfold holdSync
    rw [if_neg]
    simp [hn]
  change Host.Outcome.next (modeSwitch _) = _
  rw [hold, modeSwitch_of_wave _ (by simpa using hn)]
  simp [selectTier]

/-! ### Every instruction completes (60_exceptions.md R400) -/

theorem exec_completes (i : Instr) (s : State) : ∃ t, exec i s = .next t := by cases i <;> exact ⟨_, rfl⟩

end Sys2Proof.Machine
end

