-- ==== Sys2Proof/Laws/Invariant.lean ====
section
/-! SUPPORT. The induction behind every invariant, once: a property that each building block of the meanings keeps is kept by
every instruction and so by every step. -/

namespace Sys2Proof.Machine

/-- The blocks the meanings are made of, each keeping `P`. Every command that may start a commit or a mode switch does so with
nothing pending (43_downsampler_and_tier_buffers.md R227). -/
structure KeptByBlocks (P : State → Prop) : Prop where
  input       : ∀ ws s, P s → P (setInput ws s)
  refused     : ∀ s, P s → P (refuse s)
  response    : ∀ e s, P s → P (emit e s)
  finish      : ∀ s, P s → P (finishPending s)
  write       : ∀ r v s, P s → P (writeReg r v s)
  prior       : ∀ b s, P s → P (setPriorSync b s)
  truncated   : ∀ s, P s → P (truncateUpload s)
  append      : ∀ v s, s.waypoints.count.toNat + 1 ≤ wpMax → P s →
    P (setWpCount (s.waypoints.count.toNat + 1) (writeWaypoint s.waypoints.count.toNat false v s))
  appendPair  : ∀ v w s, s.waypoints.count.toNat + 2 ≤ wpMax → P s →
    P (setWpCount (s.waypoints.count.toNat + 2) (writeWaypoint (s.waypoints.count.toNat + 1) false w
      (writeWaypoint s.waypoints.count.toNat true v s)))
  clear       : ∀ s, P s →
    P { setWpCount 0 s with flags := { (setWpCount 0 s).flags with uploadTrunc := false } }
  updated     : ∀ s, s.flags.pend = false → P s → P (update s)
  restarted   : ∀ s, s.flags.pend = false → P s → P (modeSwitch { s with flags := { s.flags with run := true } })
  squared     : ∀ s, P s → P (deriveSquare s)
  squareEnded : ∀ s, P s → P (squareOff s)
  levelled    : ∀ s, P s → P (syncLevel s)
  slow        : ∀ s, s.flags.enSlow = true → P s → P (slowSample s)
  fast        : ∀ t s, s.flags.enFast = true → s.seq.fastMode = .fast t → P s → P (fastSample t s)
  noise       : ∀ rnd s, s.flags.enNoise = true → P s → P (noiseTick rnd s)
  usq         : ∀ s, s.flags.enUsq = true → P s → P (usqSample s)
  dither      : ∀ s, s.flags.enSlow = true → s.flags.ditherOn = true → P s → P (ditherPoint s)

/-- The mode switch of a machine that runs. -/
theorem KeptByBlocks.modeSwitch_running {P : State → Prop} (hP : KeptByBlocks P) (s : State) (hp : s.flags.pend = false)
    (hr : s.flags.run = true) (h : P s) : P (modeSwitch s) := by
  have e : ({ s with flags := { s.flags with run := true } } : State) = s := by rw [← hr]
  have := hP.restarted s hp h
  rwa [e] at this

theorem KeptByBlocks.setshape {P : State → Prop} (hP : KeptByBlocks P) (a : Nibble) (s : State) (h : P s) :
    P (selectShape a s) ∧ (selectShape a s).flags.pend = false := by
  have h0 := hP.finish s h
  unfold selectShape switchSync
  simp only
  split
  · exact ⟨hP.write _ _ _ (hP.write _ _ _ (hP.prior _ _ h0)), by simp⟩
  · split
    · exact ⟨hP.write _ _ _ (hP.write _ _ _ h0), by simp⟩
    · exact ⟨hP.write _ _ _ h0, by simp⟩

/-- A property that every block keeps is kept by every instruction. -/
theorem KeptByBlocks.exec {P : State → Prop} (hP : KeptByBlocks P) (i : Instr) (s t : State) (h : P s)
    (ht : exec i s = .next t) : P t := by
  have h0 := hP.finish s h
  have hu : ∀ r v, P (update (writeReg r v (finishPending s))) := fun r v => hP.updated _ (by simp) (hP.write r v _ h0)
  cases i <;> injection ht with ht <;> subst ht
  case nop => exact h
  case setfreq imm => exact hu _ _
  case setper imm => exact hu _ _
  case setduty imm => exact hu _ _
  case setpw imm => exact hu _ _
  case setshape a =>
    have hs := hP.setshape a s h
    split
    · rename_i hr
      exact hP.modeSwitch_running _ hs.2 hr hs.1
    · exact hs.1
  case setparam a b imm =>
    split
    · exact hP.refused s h
    · unfold afterParam
      split
      · split
        · exact hP.squared _ (hP.write _ _ _ h0)
        · exact hP.write _ _ _ h0
      · exact hu _ _
  case tglexact => exact hu _ _
  case tglsync =>
    simp only
    split
    · exact hP.prior _ _ h0
    · unfold toggleSync toggleReg
      simp only
      split
      · exact hP.squared _ (hP.levelled _ (hP.write _ _ _ (hP.squareEnded _ h0)))
      · exact hP.write _ _ _ (hP.squareEnded _ h0)
  case wpt v =>
    simp only
    split
    · exact hP.truncated _ h0
    · exact hP.append v _ (by omega) h0
  case wpts v w =>
    simp only
    split
    · exact hP.truncated _ h0
    · exact hP.appendPair v w _ (by omega) h0
  case commit => exact hP.updated _ (by simp) h0
  case wpclr => exact hP.clear _ h0
  case qstat a =>
    split
    · exact hP.refused s h
    · exact hP.response _ _ h
  case getp a b => exact hP.response _ _ h
  case putp a b imm =>
    split
    · exact hP.refused s h
    · exact hP.write _ _ _ h0
  case applyAll =>
    have hh : P (holdSync (finishPending s)) ∧ (holdSync (finishPending s)).flags.pend = false := by
      unfold holdSync
      split
      · exact ⟨hP.write _ _ _ (hP.prior _ _ h0), by simp⟩
      · exact ⟨h0, by simp⟩
    exact hP.restarted _ hh.2 hh.1
  case fgstep => exact h0
  case tickSlow =>
    split
    · rename_i he; exact hP.slow s he h
    · exact h
  case tickFast =>
    split
    · rename_i he
      split
      · exact h
      · rename_i t ht; exact hP.fast t s he ht h
    · exact h
  case tickNoise rnd =>
    split
    · rename_i he; exact hP.noise rnd s he h
    · exact h
  case tickUsq =>
    split
    · rename_i he; exact hP.usq s he h
    · exact h
  case tickDither =>
    split
    · rename_i he; exact hP.dither s he.1 he.2 h
    · exact h

/-- A property that every block keeps is kept by every step. -/
theorem KeptByBlocks.step {P : State → Prop} (hP : KeptByBlocks P) (s t : State) (h : P s) (ht : step s = .next t) :
    P t := by
  unfold Machine.step at ht
  split at ht
  · injection ht with ht; subst ht; exact h
  · rename_i w rest _
    split at ht
    · rename_i i _
      exact hP.exec i _ t (hP.input rest s h) ht
    · injection ht with ht; subst ht
      exact hP.refused _ (hP.input rest s h)

end Sys2Proof.Machine
end

