-- ==== Sys2Proof/Laws/PerInstr.lean ====
section
/-! SUPPORT. What holds of every instruction as syntax, one lemma per constructor (LAWS.json, "per_instruction"). -/

namespace Sys2Proof.Laws

-- One lemma after the other: side by side, all of them wait for the same equations on threads of their own.
set_option Elab.async false

/-- The opcode of an instruction's word lies in the class its context has: 0x40..0x7F for the five ticks, 0x00..0x3F for the
host commands (30_encoding.md R94). -/
def OpcodeClass.Statement (i : Instr) : Prop :=
  if Machine.isTick i = true then 0x40 ≤ (Word.op (encode i)).toNat ∧ (Word.op (encode i)).toNat ≤ 0x7F
  else (Word.op (encode i)).toNat ≤ 0x3F

theorem OpcodeClass.nop : OpcodeClass.Statement .nop := by
  simp [OpcodeClass.Statement, Machine.isTick, encode]

theorem OpcodeClass.setfreq (imm : Imm) : OpcodeClass.Statement (.setfreq imm) := by
  simp [OpcodeClass.Statement, Machine.isTick, encode]

theorem OpcodeClass.setper (imm : Imm) : OpcodeClass.Statement (.setper imm) := by
  simp [OpcodeClass.Statement, Machine.isTick, encode]

theorem OpcodeClass.setduty (imm : Imm) : OpcodeClass.Statement (.setduty imm) := by
  simp [OpcodeClass.Statement, Machine.isTick, encode]

theorem OpcodeClass.setpw (imm : Imm) : OpcodeClass.Statement (.setpw imm) := by
  simp [OpcodeClass.Statement, Machine.isTick, encode]

theorem OpcodeClass.setshape (a : Nibble) : OpcodeClass.Statement (.setshape a) := by
  simp [OpcodeClass.Statement, Machine.isTick, encode]

theorem OpcodeClass.setparam (a b : Nibble) (imm : Imm) : OpcodeClass.Statement (.setparam a b imm) := by
  simp [OpcodeClass.Statement, Machine.isTick, encode]

theorem OpcodeClass.tglexact : OpcodeClass.Statement .tglexact := by
  simp [OpcodeClass.Statement, Machine.isTick, encode]

theorem OpcodeClass.tglsync : OpcodeClass.Statement .tglsync := by
  simp [OpcodeClass.Statement, Machine.isTick, encode]

theorem OpcodeClass.wpt (v : Sample) : OpcodeClass.Statement (.wpt v) := by
  simp [OpcodeClass.Statement, Machine.isTick, encode]

theorem OpcodeClass.wpts (v w : Sample) : OpcodeClass.Statement (.wpts v w) := by
  simp [OpcodeClass.Statement, Machine.isTick, encode]

theorem OpcodeClass.commit : OpcodeClass.Statement .commit := by
  simp [OpcodeClass.Statement, Machine.isTick, encode]

theorem OpcodeClass.wpclr : OpcodeClass.Statement .wpclr := by
  simp [OpcodeClass.Statement, Machine.isTick, encode]

theorem OpcodeClass.qstat (a : Nibble) : OpcodeClass.Statement (.qstat a) := by
  simp [OpcodeClass.Statement, Machine.isTick, encode]

theorem OpcodeClass.getp (a b : Nibble) : OpcodeClass.Statement (.getp a b) := by
  simp [OpcodeClass.Statement, Machine.isTick, encode]

theorem OpcodeClass.putp (a b : Nibble) (imm : Imm) : OpcodeClass.Statement (.putp a b imm) := by
  simp [OpcodeClass.Statement, Machine.isTick, encode]

theorem OpcodeClass.applyAll : OpcodeClass.Statement .applyAll := by
  simp [OpcodeClass.Statement, Machine.isTick, encode]

theorem OpcodeClass.fgstep : OpcodeClass.Statement .fgstep := by
  simp [OpcodeClass.Statement, Machine.isTick, encode]

theorem OpcodeClass.tickSlow : OpcodeClass.Statement .tickSlow := by
  simp [OpcodeClass.Statement, Machine.isTick, encode]

theorem OpcodeClass.tickFast : OpcodeClass.Statement .tickFast := by
  simp [OpcodeClass.Statement, Machine.isTick, encode]

theorem OpcodeClass.tickNoise (rnd : BitVec 32) : OpcodeClass.Statement (.tickNoise rnd) := by
  simp [OpcodeClass.Statement, Machine.isTick, encode]

theorem OpcodeClass.tickUsq : OpcodeClass.Statement .tickUsq := by
  simp [OpcodeClass.Statement, Machine.isTick, encode]

theorem OpcodeClass.tickDither : OpcodeClass.Statement .tickDither := by
  simp [OpcodeClass.Statement, Machine.isTick, encode]

end Sys2Proof.Laws
end

