-- ==== Sys2Proof/Machine/Assembly.lean ====
section
/-! DEFINITION. What the spec writes around the stimulus words: the (A, B) and the name of a parameter register (10_state.md
R22 to R28), the line of a word (30_encoding.md R107), the pseudo-instructions with their expansions (R109), and the words
that save and restore the snapshot (48_system.md R362). No step depends on any of it. -/

namespace Sys2Proof.Machine

/-- Every parameter register (10_state.md R22 to R28). DESIGN CHOICE (log 22): they are listed in bank and index order,
where the snapshot's field set has no order (48_system.md R362). -/
def allRegs : List Reg := [
  .sAmp, .sBias, .sPhase, .sMult, .sMixMode, .sW1, .sW2,
  .tAmp, .tBias, .tPhase, .tSteps,
  .aVScale, .aVShift, .aHZoom, .aHShift, .aMirror,
  .cWs, .cWt, .cWa, .cBias,
  .nAmp, .nColor,
  .qFreq, .qDuty,
  .fTarget, .duty, .shape, .exact, .sync]

/-- The bank of a register, its operand A (10_state.md R21). -/
def regBank (r : Reg) : Nibble :=
  match r with
  | .sAmp | .sBias | .sPhase | .sMult | .sMixMode | .sW1 | .sW2 => 0
  | .tAmp | .tBias | .tPhase | .tSteps => 1
  | .aVScale | .aVShift | .aHZoom | .aHShift | .aMirror => 2
  | .cWs | .cWt | .cWa | .cBias => 3
  | .nAmp | .nColor => 4
  | .qFreq | .qDuty => 5
  | .fTarget | .duty | .shape | .exact | .sync => 6

/-- The index of a register in its bank, its operand B (10_state.md R21). -/
def regIdx (r : Reg) : Nibble :=
  match r with
  | .sAmp | .tAmp | .aVScale | .cWs | .nAmp | .qFreq | .fTarget => 0
  | .sBias | .tBias | .aVShift | .cWt | .nColor | .qDuty | .duty => 1
  | .sPhase | .tPhase | .aHZoom | .cWa | .shape => 2
  | .sMult | .tSteps | .aHShift | .cBias | .exact => 3
  | .sMixMode | .aMirror | .sync => 4
  | .sW1 => 5
  | .sW2 => 6

/-- The lower-case name of a register, as a line writes it (30_encoding.md R109). -/
def regName (r : Reg) : String :=
  match r with
  | .sAmp => "s_amp"
  | .sBias => "s_bias"
  | .sPhase => "s_phase"
  | .sMult => "s_mult"
  | .sMixMode => "s_mixmode"
  | .sW1 => "s_w1"
  | .sW2 => "s_w2"
  | .tAmp => "t_amp"
  | .tBias => "t_bias"
  | .tPhase => "t_phase"
  | .tSteps => "t_steps"
  | .aVScale => "a_vscale"
  | .aVShift => "a_vshift"
  | .aHZoom => "a_hzoom"
  | .aHShift => "a_hshift"
  | .aMirror => "a_mirror"
  | .cWs => "c_ws"
  | .cWt => "c_wt"
  | .cWa => "c_wa"
  | .cBias => "c_bias"
  | .nAmp => "n_amp"
  | .nColor => "n_color"
  | .qFreq => "q_freq"
  | .qDuty => "q_duty"
  | .fTarget => "f_target"
  | .duty => "duty"
  | .shape => "shape"
  | .exact => "exact"
  | .sync => "sync"

/-- Operands separated by commas (30_encoding.md R107). -/
def operandList (xs : List Int) : String := ", ".intercalate (xs.map toString)

/-- The line of an instruction: its mnemonic and its operands in the order A, B, IMM, in decimal (30_encoding.md R107). -/
def lineOf (i : Instr) : String :=
  match i with
  | .nop => "nop"
  | .setfreq imm => "setfreq " ++ operandList [zextImm imm]
  | .setper imm => "setper " ++ operandList [zextImm imm]
  | .setduty imm => "setduty " ++ operandList [zextImm imm]
  | .setpw imm => "setpw " ++ operandList [zextImm imm]
  | .setshape a => "setshape " ++ operandList [a.toNat]
  | .setparam a b imm => "setparam " ++ operandList [a.toNat, b.toNat, sextImm imm]
  | .tglexact => "tglexact"
  | .tglsync => "tglsync"
  | .wpt v => "wpt " ++ operandList [v.toNat]
  | .wpts before after => "wpts " ++ operandList [before.toNat, after.toNat]
  | .commit => "commit"
  | .wpclr => "wpclr"
  | .qstat a => "qstat " ++ operandList [a.toNat]
  | .getp a b => "getp " ++ operandList [a.toNat, b.toNat]
  | .putp a b imm => "putp " ++ operandList [a.toNat, b.toNat, sextImm imm]
  | .applyAll => "apply"
  | .fgstep => "fgstep"
  | .tickSlow => "tick.slow"
  | .tickFast => "tick.fast"
  | .tickNoise rnd => "tick.noise " ++ operandList [rnd.toNat]
  | .tickUsq => "tick.usq"
  | .tickDither => "tick.dither"

/-- The pseudo-instructions (30_encoding.md R109). -/
inductive Pseudo where
  | setfreqHz (n : Nat)
  | setdutyPct (n : Nat)
  | wave (s : Shape)
  | rep (n : Nat) (i : Instr)
  | setparamNamed (r : Reg) (v : Int)
deriving DecidableEq, Repr

/-- The number of a wave family (10_state.md R28). -/
def shapeNumber (s : Shape) : Nibble :=
  match s with
  | .sine => 0
  | .triangle => 1
  | .arbitrary => 2
  | .composite => 3
  | .noise => 4

/-- The instructions a pseudo-instruction stands for (30_encoding.md R109). The line `setparam.<name>` exists for the registers
of banks 0 to 5 only. -/
def Pseudo.expand (p : Pseudo) : List Instr :=
  match p with
  | .setfreqHz n => [.setfreq (BitVec.ofNat 48 (n * 1000000))]
  | .setdutyPct n => [.setduty (BitVec.ofNat 48 (n * 10000))]
  | .wave s => [.setshape (shapeNumber s)]
  | .rep n i => List.replicate n i
  | .setparamNamed r v => if regBank r = 6 then [] else [.setparam (regBank r) (regIdx r) (BitVec.ofInt 48 v)]

/-- Save: one GETP per field of the snapshot (48_system.md R362). The order of the words is that of `allRegs`, a DESIGN
CHOICE (log 22). -/
def snapshotSave : List Instr := allRegs.map fun r => .getp (regBank r) (regIdx r)

/-- Restore: one PUTP per field and then one APPLY (48_system.md R362). The order of the PUTP words is that of `allRegs`, a
DESIGN CHOICE (log 22): R442 allows any. -/
def snapshotRestore (p : Params) : List Instr :=
  allRegs.map (fun r => .putp (regBank r) (regIdx r) (getReg p r)) ++ [.applyAll]

end Sys2Proof.Machine
end

