-- ==== Sys2Proof/Tests/Slice0.lean ====
section
/-! SUPPORT. Tests: the well-formedness checks on ill-formed terms, the decoder on words written out from the spec, the sine
ROM against its checksums, at most two one-step tests per instruction with values from 95_test_vectors.md (V<n>, P<n>) or
worked out from the rule named, and for every obligation with hypotheses a concrete state that meets them. -/

namespace Sys2Proof.Tests

open Sys2Proof.Machine

-- One theorem after the other: checked side by side, each waits for the kernel on a thread of its own.
set_option Elab.async false

/-! ## Helpers -/

/-- The reset state with words in its stream. -/
def resetWithInput (ws : List Word) : State := { State.reset with input := ws }

/-- The state after `i` where there is one. -/
def after (i : Instr) (s : State) : State :=
  match exec i s with
  | .next t => t
  | _ => s

/-- The state after one step where there is one. -/
def stepped (s : State) : State :=
  match step s with
  | .next t => t
  | _ => s

/-- The decoder's answer, or `none`. -/
def decoded (w : Word) : Option Instr := instrOf w

/-- Tier 3 running at 50 % duty with a buffer of 16 cells in each half: 0, 1, .., 15 and 100, 101, .., 115. -/
def fastState : State := { State.reset with
  params := { State.reset.params with fTarget := 50000000000 }
  seq := { State.reset.seq with fastMode := .fast .t3, seqLen := 8 }
  flags := { State.reset.flags with run := true, enFast := true, enPwm := true }
  derived := { State.reset.derived with sqDelay := 42, dutyAct := 500000 }
  tables := { State.reset.tables with
    tb := { State.reset.tables.tb with t3 :=
      ⟨Memory.ofCells ((List.range 16).map (BitVec.ofNat 16)),
       Memory.ofCells ((List.range 16).map fun k => BitVec.ofNat 16 (100 + k))⟩ }
    dutyT := ⟨⟨80, 40, 20, 8⟩, ⟨80, 40, 20, 8⟩⟩ } }

/-- The fast state with a phase B pending: half 0 is still to get 4 samples, half 1 has its 12. -/
def pendingState : State := { fastState with
  flags := { fastState.flags with pend := true, pendHalf := .first }
  tables := { fastState.tables with dutyT := ⟨⟨80, 40, 20, 8⟩, ⟨120, 60, 30, 12⟩⟩ }
  shadow := { State.reset.shadow with
    tb := Memory.ofCells (List.replicate 16 7)
    duty := ⟨40, 20, 10, 4⟩
    ratio := 65536 } }

/-- The slow path running at step 2147484 (V41, 100 Hz) with three cells of WF listed in each half. -/
def slowState : State := { State.reset with
  params := { State.reset.params with fTarget := 100000000 }
  seq := { State.reset.seq with increment := ⟨2147484, 2147484⟩, incBase := ⟨2147483, 2147483⟩, incFrac := ⟨648, 648⟩ }
  flags := { State.reset.flags with run := true, enSlow := true }
  derived := { State.reset.derived with sqDelay := 95 }
  tables := { State.reset.tables with wf :=
    ⟨[(0, 10), (2, 11), (4095, 12)], [(0, 20), (2, 21), (4095, 22)]⟩ } }

/-- Dithering at 0.05 Hz (V44). -/
def ditherState : State := { slowState with
  flags := { slowState.flags with ditherOn := true }
  seq := { slowState.seq with increment := ⟨1073, 1073⟩, incBase := ⟨1073, 1073⟩, incFrac := ⟨741, 741⟩ } }

/-- Noise mode at colour 30, amplitude 200 (V71). -/
def noiseState : State := { State.reset with
  params := { State.reset.params with shape := 4, nColor := 30, nAmp := 200 }
  noise := { State.reset.noise with cf := 5, lfc := 3, mw := 100, lbw := 68, hbw := 6 }
  flags := { State.reset.flags with run := true, enNoise := true } }

/-- The independent square wave at 100 Hz, one tick before its first crossing (V61). -/
def usqState : State := { State.reset with
  usq := { State.reset.usq with acc := BitVec.ofNat 32 (4294967 * 1000), inc := ⟨4294967, 4294967⟩ }
  flags := { State.reset.flags with run := true, enUsq := true } }

/-- A state whose waypoint count is `n`, with no cell listed. -/
def withCount (n : Nat) : State := setWpCount n State.reset

/-! ## WellFormed -/

theorem test_setparam_of_bank_6_is_ill_formed : (Instr.setparam 6 0 5).wellFormed = false := by decide
theorem test_setparam_of_no_register_is_ill_formed : (Instr.setparam 0 7 1).wellFormed = false := by decide
theorem test_setparam_of_a_register_is_well_formed : (Instr.setparam 5 1 0).wellFormed = true := by decide
theorem test_putp_of_bank_7_is_ill_formed : (Instr.putp 7 0 1).wellFormed = false := by decide
theorem test_putp_of_no_register_is_ill_formed : (Instr.putp 6 5 1).wellFormed = false := by decide
theorem test_qstat_3_is_ill_formed : (Instr.qstat 3).wellFormed = false := by decide

/-- Every register that (A, B) names is within its bank's size, and no other (A, B) names one. -/
theorem test_bank_sizes_agree_with_the_registers :
    ∀ a b : Nibble, (regAt a b).isSome = decide (b.toNat < bankSize a.toNat) := by decide +kernel

theorem test_reference_configuration_is_valid : Cfg.ref.valid = true := by decide
theorem test_minmaxduty_0_is_invalid : ({ Cfg.ref with minMaxDuty := 0 } : Cfg).valid = false := by decide
theorem test_minmaxduty_9_is_invalid : ({ Cfg.ref with minMaxDuty := 9 } : Cfg).valid = false := by decide
theorem test_timer_0_is_invalid : ({ Cfg.ref with fTimer := 0 } : Cfg).valid = false := by decide
theorem test_tc_slow_0_is_invalid : ({ Cfg.ref with tcSlow := 0 } : Cfg).valid = false := by decide
theorem test_tc_slow_must_divide_the_timer : ({ Cfg.ref with tcSlow := 211 } : Cfg).valid = false := by decide
theorem test_tc_min_0_is_invalid : ({ Cfg.ref with tcMin := 0 } : Cfg).valid = false := by decide
theorem test_tc_max_below_tc_min_is_invalid : ({ Cfg.ref with tcMax := 1 } : Cfg).valid = false := by decide
theorem test_tc_max_of_33_bits_is_invalid : ({ Cfg.ref with tcMax := 2 ^ 32 } : Cfg).valid = false := by decide
theorem test_tier_limits_must_exceed_1_khz : ({ Cfg.ref with tierT0 := 1000000000 } : Cfg).valid = false := by decide
theorem test_tier_limits_must_rise : ({ Cfg.ref with tierT1 := 10000000000 } : Cfg).valid = false := by decide
theorem test_last_tier_limit_must_rise : ({ Cfg.ref with tierT2 := 20000000000 } : Cfg).valid = false := by decide
theorem test_f_min_0_is_invalid : ({ Cfg.ref with fMin := 0 } : Cfg).valid = false := by decide
theorem test_f_max_below_f_min_is_invalid : ({ Cfg.ref with fMax := 999 } : Cfg).valid = false := by decide
theorem test_f_max_of_49_bits_is_invalid : ({ Cfg.ref with fMax := 2 ^ 48 } : Cfg).valid = false := by decide
theorem test_sq_f_min_0_is_invalid : ({ Cfg.ref with sqFMin := 0 } : Cfg).valid = false := by decide
theorem test_sq_f_max_below_sq_f_min_is_invalid : ({ Cfg.ref with sqFMax := 999 } : Cfg).valid = false := by decide
theorem test_sq_f_max_of_49_bits_is_invalid : ({ Cfg.ref with sqFMax := 2 ^ 48 } : Cfg).valid = false := by decide
theorem test_cal_num_0_is_invalid : ({ Cfg.ref with calNum := 0 } : Cfg).valid = false := by decide
theorem test_cal_den_0_is_invalid : ({ Cfg.ref with calDen := 0 } : Cfg).valid = false := by decide
theorem test_lrf_den_0_is_invalid : ({ Cfg.ref with lrfDen := 0 } : Cfg).valid = false := by decide
theorem test_ldf_0_is_invalid : ({ Cfg.ref with ldf := 0 } : Cfg).valid = false := by decide
theorem test_usq_limits_must_fall : ({ Cfg.ref with usqT1 := 1300000000 } : Cfg).valid = false := by decide
theorem test_usq_third_limit_must_fall : ({ Cfg.ref with usqT2 := 650000000 } : Cfg).valid = false := by decide
theorem test_usq_last_limit_must_fall : ({ Cfg.ref with usqT3 := 325000000 } : Cfg).valid = false := by decide
theorem test_f_pwm_0_is_invalid : ({ Cfg.ref with fPwm := 0 } : Cfg).valid = false := by decide
theorem test_pwm_per_max_1_is_invalid : ({ Cfg.ref with pwmPerMax := 1 } : Cfg).valid = false := by decide
theorem test_arb_sharp_0_is_invalid : ({ Cfg.ref with arbSharp := 0 } : Cfg).valid = false := by decide
theorem test_map_of_one_breakpoint_is_invalid : ColorMap.valid 100 [(1000, 5)] = false := by decide
theorem test_map_must_start_at_0 : ColorMap.valid 100 [(1, 5), (1000, 5)] = false := by decide
theorem test_map_must_end_at_1000 : ColorMap.valid 100 [(0, 5), (999, 5)] = false := by decide
theorem test_map_must_rise : ColorMap.valid 100 [(0, 5), (0, 6), (1000, 5)] = false := by decide
theorem test_map_value_above_its_bound_is_invalid : ColorMap.valid 100 [(0, 5), (1000, 101)] = false := by decide
theorem test_map_value_below_0_is_invalid : ColorMap.valid 100 [(0, -1), (1000, 5)] = false := by decide

/-! ## Decoding: words written out as `OP A B IMM` from 30_encoding.md R91, R95 (V1 where it lists the line) -/

theorem test_decode_nop : decoded 0x0000000000000000 = some .nop := by decide +kernel
theorem test_decode_setfreq : decoded 0x0100000BA43B7400 = some (.setfreq 50000000000) := by decide +kernel
theorem test_decode_setper : decoded 0x0200000000002710 = some (.setper 10000) := by decide +kernel
theorem test_decode_setduty : decoded 0x030000000003D090 = some (.setduty 250000) := by decide +kernel
theorem test_decode_setpw : decoded 0x04000000000000FA = some (.setpw 250) := by decide +kernel
theorem test_decode_setshape : decoded 0x0540000000000000 = some (.setshape 4) := by decide +kernel
theorem test_decode_setparam : decoded 0x0601FFFFFFFFFFFB = some (.setparam 0 1 (BitVec.ofInt 48 (-5))) := by decide +kernel
theorem test_decode_tglexact : decoded 0x0700000000000000 = some .tglexact := by decide +kernel
theorem test_decode_tglsync : decoded 0x0800000000000000 = some .tglsync := by decide +kernel
theorem test_decode_wpt : decoded 0x09000000000003E8 = some (.wpt 1000) := by decide +kernel
theorem test_decode_wpts : decoded 0x0A00000001F40BB8 = some (.wpts 3000 500) := by decide +kernel
theorem test_decode_commit : decoded 0x0B00000000000000 = some .commit := by decide +kernel
theorem test_decode_wpclr : decoded 0x0C00000000000000 = some .wpclr := by decide +kernel
theorem test_decode_qstat : decoded 0x0D20000000000000 = some (.qstat 2) := by decide +kernel
theorem test_decode_getp : decoded 0x0E75000000000000 = some (.getp 7 5) := by decide +kernel
theorem test_decode_putp : decoded 0x0F6000001A39DE00 = some (.putp 6 0 440000000) := by decide +kernel
theorem test_decode_apply : decoded 0x1000000000000000 = some .applyAll := by decide +kernel
theorem test_decode_fgstep : decoded 0x1100000000000000 = some .fgstep := by decide +kernel
theorem test_decode_tick_slow : decoded 0x4000000000000000 = some .tickSlow := by decide +kernel
theorem test_decode_tick_fast : decoded 0x4100000000000000 = some .tickFast := by decide +kernel
theorem test_decode_tick_noise : decoded 0x4200000012348000 = some (.tickNoise 0x12348000) := by decide +kernel
theorem test_decode_tick_usq : decoded 0x4300000000000000 = some .tickUsq := by decide +kernel
theorem test_decode_tick_dither : decoded 0x4400000000000000 = some .tickDither := by decide +kernel

/-- The words V2 names that no row selects. -/
theorem test_decode_refuses_by_name :
    (match decode 0x1200000000000000 with | .error e => e == .unassignedOp | .ok _ => false) = true ∧
    (match decode 0x8000000000000000 with | .error e => e == .reservedClass | .ok _ => false) = true ∧
    (match decode 0x0700000000000001 with | .error e => e == .mustBeZero "TGLEXACT" | .ok _ => false) = true := by
  decide +kernel

theorem test_decode_refuses_nonzero_fields :
    decoded 0x0510000000000001 = none ∧ decoded 0x0900000000001000 = none ∧ decoded 0x4200000100000000 = none ∧
    decoded 0x0A00000010000000 = none ∧ decoded 0x0A00000000001000 = none ∧ decoded 0x0D31000000000000 = none ∧
    decoded 0x0E99000000000001 = none ∧ decoded 0x0101000000000000 = none ∧ decoded 0x0110000000000000 = none := by
  decide +kernel

/-- The table's numbering puts bit 0 first, and the decoder's rows are those of the table. -/
theorem test_decode_table_word : decodeTableWord 64 0x0601FFFFFFFFFFFB = some (.setparam 0 1 (BitVec.ofInt 48 (-5))) := by
  decide +kernel

/-- A serialised word is big-endian (20_memory.md R68), and a short one is refused by name. -/
theorem test_decode_bytes : (match decodeBytes [0x0E, 0x75, 0, 0, 0, 0, 0, 0, 0xFF] with
    | .ok (i, rest) => i == .getp 7 5 && rest == [0xFF] | .error _ => false) = true ∧
    (match decodeBytes [0x0E, 0x75, 0, 0, 0, 0, 0] with | .ok _ => false | .error e => e == .truncated) = true := by
  decide +kernel

/-! ## Lines, pseudo-instructions and the snapshot (30_encoding.md R107, R109, 48_system.md R362) -/

theorem test_line : lineOf (.setparam 0 1 (BitVec.ofInt 48 (-5))) = "setparam 0, 1, -5" ∧
    lineOf (.wpts 100 4000) = "wpts 100, 4000" ∧ lineOf .tickFast = "tick.fast" := by decide +kernel

theorem test_pseudo : (Pseudo.setparamNamed .sPhase 2048).expand = [.setparam 0 2 2048] ∧
    (Pseudo.setfreqHz 1000).expand = [.setfreq 1000000000] ∧ (Pseudo.setdutyPct 25).expand = [.setduty 250000] ∧
    (Pseudo.wave .noise).expand = [.setshape 4] ∧ (Pseudo.rep 2 .tickFast).expand = [.tickFast, .tickFast] := by decide +kernel

/-- The 29 fields, each named by its own (A, B). -/
theorem test_registers_by_number : allRegs.length = 29 ∧
    (allRegs.all fun r => regAt (regBank r) (regIdx r) == some r) = true := by decide +kernel

/-! ## The sine ROM (42_sine_rom.md) and the render functions -/

/-- The ROM's length and its two sums (42_sine_rom.md). -/
theorem test_sine_rom_checksums : qsinList.length = 2049 ∧ qsinList.sum = 42737928 ∧
    (qsinList.zipIdx.map fun p => (p.2 + 1) * p.1).sum % 2 ^ 32 = 4236914986 := by decide +kernel

/-- The properties of the ROM that 42_sine_rom.md R201 lists. -/
theorem test_sine_rom_properties : [0, 512, 683, 1024, 1365, 1536, 2040, 2041, 2048].map qsin =
    [0, 12539, 16391, 23170, 28373, 30273, 32766, 32767, 32767] ∧
    ((List.range 2048).all fun k => decide (qsin k ≤ qsin (k + 1))) = true := by decide +kernel

/-- V20. -/
theorem test_sin15 : [0, 1, 683, 1024, 2048, 3000, 4096, 4097, 6144, 8191, 8192, -1, 10000].map sin15 =
    [0, 25, 16391, 23170, 32767, 24413, 0, -25, -32767, -25, 0, -25, 32213] := by decide +kernel

/-- V21, default sine, cells 0, 1024, 3072, 4095 of each half. -/
theorem test_wave_sine : [0, 1024, 3072, 4095].map (fun i => waveLevel Params.reset [] .first i) = [1, 601, 3495, 4095] ∧
    [0, 1024, 3072, 4095].map (fun i => waveLevel Params.reset [] .second i) = [4095, 3495, 601, 1] := by decide +kernel

/-- V23, the staircase of 3 steps. -/
theorem test_wave_staircase :
    [0, 1, 1365, 1366, 2730, 2731, 4095].map (fun i =>
      waveLevel { Params.reset with shape := 1, tSteps := 3 } [] .first i) = [1, 1366, 1366, 2730, 2730, 4095, 4095] := by
  decide +kernel

/-- V25, the peak hold of tier 0 over two waypoints. -/
theorem test_arbitrary_peak_hold :
    [0, 24, 25, 26, 2048, 2072, 2073, 2074].map (fun i =>
      (arbSrc 1 (.fast .t0) [⟨0, 0, false⟩, ⟨4095, 4095, false⟩]).getD i 0) = [0, 0, 50, 52, 4095, 4095, 4045, 4043] := by
  decide +kernel

/-- V26, the stepped pair. -/
theorem test_arbitrary_stepped_pair :
    [0, 1364, 1365, 1366, 2729, 2730, 2731, 4095].map (fun i =>
      (arbSrc 1 .slow (positionsOf [0x03E8, 0x1BB8, 0x01F4, 0x07D0])).getD i 0) =
      [1000, 2999, 500, 501, 1999, 2000, 1999, 1001] := by decide +kernel

/-! ## One step of each instruction -/

theorem test_nop : exec .nop fastState = .next fastState := rfl

/-- V2: `setfreq 0` stores F_MIN. Before APPLY nothing is derived (40_clock_and_tier.md R128). -/
theorem test_setfreq_clamps : (after (.setfreq 0) State.reset).params.fTarget = 1000 ∧
    (after (.setfreq 0) State.reset).derived = State.reset.derived := by decide +kernel

/-- 40_clock_and_tier.md R128 and V11: a change from tier 3 to tier 0 while running is a mode switch. -/
theorem test_setfreq_changes_tier : (after (.setfreq 1000000000) fastState).seq.fastMode = .fast .t0 ∧
    (after (.setfreq 1000000000) fastState).derived.tc = 525 ∧
    (after (.setfreq 1000000000) fastState).seq.seqLen = 80 := by decide +kernel

/-- V13. -/
theorem test_setper : (after (.setper 3) State.reset).params.fTarget = 333333333 ∧
    (after (.setper 0) State.reset).params.fTarget = 100000000000 ∧
    (after (.setper 2000000000) State.reset).params.fTarget = 1000 := by decide +kernel

/-- P6: phase A writes half 1, half 0 keeps its count, phase B is pending. -/
theorem test_setduty_phase_a : (after (.setduty 250000) fastState).flags.pend = true ∧
    (after (.setduty 250000) fastState).tables.dutyT = ⟨⟨80, 40, 20, 8⟩, ⟨120, 60, 30, 12⟩⟩ ∧
    (after (.setduty 250000) fastState).shadow.duty = ⟨40, 20, 10, 4⟩ := by decide +kernel

/-- V51: TC = 105 at 25 % duty gives SQ_DELAY = 7. -/
theorem test_setduty_delay : (after (.setduty 250000) fastState).derived.sqDelay = 7 := by decide +kernel

/-- V33. -/
theorem test_setpw : (after (.setpw 250) State.reset).params.duty = 250000 ∧
    (after (.setpw 2000) State.reset).params.duty = 1000000 ∧
    (after (.setpw 5) fastState).params.duty = 250000 := by decide +kernel

/-- V2: `setshape 9` sets SHAPE = 4. -/
theorem test_setshape_clamps : (after (.setshape 9) State.reset).params.shape = 4 := by decide +kernel

/-- V52: entering noise mode with SYNC = 1. -/
theorem test_setshape_enters_noise :
    let s : State := { fastState with params := { fastState.params with sync := 1 } }
    (after (.setshape 4) s).flags.priorSync = true ∧ (after (.setshape 4) s).params.sync = 0 ∧
    (after (.setshape 4) s).flags.enNoise = true ∧ (after (.setshape 4) s).flags.enFast = false := by decide +kernel

/-- 41_wavetable_builder.md R151: a signed operand, clamped; and the refused bank of V2. -/
theorem test_setparam : (after (.setparam 0 1 (BitVec.ofInt 48 (-5000))) State.reset).params.sBias = BitVec.ofInt 48 (-4095) ∧
    (after (.setparam 6 0 5) State.reset).flags.badCmd = true := by decide +kernel

/-- V60, the row 10 MHz: only the square wave is derived again. -/
theorem test_setparam_square :
    let s : State := { fastState with params := { fastState.params with qDuty := 333333 } }
    (after (.setparam 5 0 10000000000000) s).usq.pwmPer = 8 ∧ (after (.setparam 5 0 10000000000000) s).usq.pwmDty = 3 ∧
    (after (.setparam 5 0 10000000000000) s).flags.pend = false := by decide +kernel

/-- P3 and V41, 50 kHz exact: the slow path. -/
theorem test_tglexact : (after .tglexact fastState).params.exact = 1 ∧ (after .tglexact fastState).seq.fastMode = .slow ∧
    (after .tglexact fastState).derived.fActual = 50000000000 := by decide +kernel

/-- P1: the pin goes to the wave with the level of half 0. -/
theorem test_tglsync : (after .tglsync fastState).params.sync = 1 ∧ (after .tglsync fastState).flags.enPwm = false ∧
    (after .tglsync fastState).trace = [.sq true 0] := by decide +kernel

/-- V52: in noise mode only PRIOR_SYNC flips. -/
theorem test_tglsync_noise : (after .tglsync noiseState).flags.priorSync = true ∧
    (after .tglsync noiseState).params = noiseState.params := by decide +kernel

/-- 41_wavetable_builder.md R152 at the last free cell and with none left. -/
theorem test_wpt : (after (.wpt 1000) (withCount 4095)).waypoints = ⟨[(4095, 0x03E8)], 4096⟩ ∧
    (after (.wpt 1000) (withCount 4096)).flags.uploadTrunc = true := by decide +kernel

/-- V26's cells, and 41_wavetable_builder.md R153 with one cell left. -/
theorem test_wpts : (after (.wpts 3000 500) (withCount 1)).waypoints = ⟨[(1, 0x1BB8), (2, 0x01F4)], 3⟩ ∧
    (after (.wpts 3000 500) (withCount 4095)).waypoints = ⟨[], 4095⟩ ∧
    (after (.wpts 3000 500) (withCount 4095)).flags.uploadTrunc = true := by decide +kernel

/-- 43_downsampler_and_tier_buffers.md R226: half 0 is being output, so half 1 is written. -/
theorem test_commit : (after .commit fastState).flags.pend = true ∧ (after .commit fastState).flags.pendHalf = .first ∧
    (after .commit fastState).tables.wf.h0 = [] ∧
    ((after .commit fastState).tables.rt.h1.map Prod.snd).take 3 = [4095, 4095, 4093] := by decide +kernel

theorem test_wpclr :
    let s : State := { (after (.wpt 5) State.reset) with flags := { State.reset.flags with uploadTrunc := true } }
    (after .wpclr s).waypoints = ⟨[(0, 5)], 0⟩ ∧ (after .wpclr s).flags.uploadTrunc = false := by decide +kernel

/-- P5's last line, and the refused selector of V2. -/
theorem test_qstat : (after (.qstat 2) noiseState).trace = [.resp 0x0D20000000000040] ∧
    (after (.qstat 3) noiseState).flags.badCmd = true ∧ (after (.qstat 3) noiseState).trace = [] := by decide +kernel

/-- V80, V2 (`getp 9, 9`) and V81. -/
theorem test_getp : (after (.getp 4 1) State.reset).trace = [.resp 0x0E410000000001F4] ∧
    (after (.getp 9 9) State.reset).trace = [.resp 0x0E99000000000000] ∧
    (after (.getp 7 5) fastState).trace = [.resp 0x0E75000000003200] := by decide +kernel

/-- 48_system.md R364: stored and clamped, nothing derived. -/
theorem test_putp : (after (.putp 6 0 440000000) fastState).params.fTarget = 440000000 ∧
    (after (.putp 6 0 440000000) fastState).seq = fastState.seq ∧
    (after (.putp 6 4 9) fastState).params.sync = 1 := by decide +kernel

/-- P1 after its first word: tier 0, TC = 525, SQ_DELAY = 252, FLAGS = 0x3200. -/
theorem test_apply : (after .applyAll State.reset).derived.tc = 525 ∧ (after .applyAll State.reset).derived.sqDelay = 252 ∧
    flagsView (after .applyAll State.reset) = 0x3200 ∧ (after .applyAll State.reset).usq.pwmPer = 42000 := by decide +kernel

/-- V50: the first cells of TB[0][0] after APPLY. -/
theorem test_apply_tables :
    [0, 1, 2, 3, 4, 79].map (fun k => readCell (after .applyAll State.reset) (.tb .t0 .first) k) =
      [1, 3, 7, 15, 26, 4093] := by decide +kernel

/-- P6: phase B gives half 0 its 4 samples. -/
theorem test_fgstep : (after .fgstep pendingState).tables.dutyT.h0 = ⟨40, 20, 10, 4⟩ ∧
    (after .fgstep pendingState).flags.pend = false ∧
    readCell (after .fgstep pendingState) (.tb .t3 .first) 3 = 7 := by decide +kernel

/-- 44_phase_accumulator.md R250: 2147484 has top bits 2. -/
theorem test_tick_slow : (after .tickSlow slowState).trace = [.dac 11] ∧
    (after .tickSlow slowState).seq.waveBit = 2147484 := by decide +kernel

/-- V43: the first boundary of 440 Hz, 30 %, exact, re-based, with SYNC = 1. -/
theorem test_tick_slow_rebases :
    let s : State := { slowState with
      params := { slowState.params with exact := 1, sync := 1 }
      flags := { slowState.flags with dutyNot50 := true }
      derived := { slowState.derived with dutyA := 300000, sqDelay := 19 }
      seq := { slowState.seq with
        waveBit := 4283481840, increment := ⟨15748095, 6749184⟩, ratio := ⟨28086, 152917⟩ } }
    (after .tickSlow s).seq.waveBit = 1826789 ∧ (after .tickSlow s).trace = [.dac 12, .sq false 19] := by decide +kernel

theorem test_tick_fast : (after .tickFast { fastState with seq := { fastState.seq with seqIdx := 6 } }).trace = [.dac 6] ∧
    (after .tickFast { fastState with seq := { fastState.seq with seqIdx := 6 } }).seq.half = .first := by decide +kernel

/-- 45_sequencer_and_sync_square.md R281, R289: the other half is empty, so the pin gets a pulse (P2). -/
theorem test_tick_fast_empty_half :
    let s : State := { fastState with
      params := { fastState.params with sync := 1 }
      seq := { fastState.seq with half := .second, seqIdx := 15, seqLen := 16 }
      tables := { fastState.tables with dutyT := ⟨⟨0, 0, 0, 0⟩, ⟨160, 80, 40, 16⟩⟩ } }
    (after .tickFast s).trace = [.dac 115, .sqPulse 42] ∧ (after .tickFast s).seq.half = .second ∧
    (after .tickFast s).seq.seqIdx = 0 := by decide +kernel

/-- V71, the first line. -/
theorem test_tick_noise : (after (.tickNoise 0x00007FFF) noiseState).noise.nfFast = 429483622 ∧
    (after (.tickNoise 0x00007FFF) noiseState).noise.nfAvg = 2146881 ∧
    (after (.tickNoise 0x00007FFF) noiseState).trace = [.dac 2056] := by decide +kernel

/-- V71, the fourth line from the third's registers: the slow filter runs. -/
theorem test_tick_noise_slow_filter :
    let s : State := { noiseState with
      noise := { noiseState.noise with nfFast := -68727866, nfAvg := -2209, nfCnt := 3 } }
    (after (.tickNoise 0x0000C000) s).noise.nfSlow = -32212254 ∧ (after (.tickNoise 0x0000C000) s).noise.nfCnt = 0 ∧
    (after (.tickNoise 0x0000C000) s).out.dacOut = 1984 := by decide +kernel

/-- V61: tick 1001 of 100 Hz, 50 %. -/
theorem test_tick_usq : (after .tickUsq usqState).trace = [.sq false 0] ∧
    (after .tickUsq usqState).usq.half = .second := by decide +kernel

/-- V44, the first two dither points. -/
theorem test_tick_dither : (after .tickDither ditherState).seq.dacc = ⟨741, 741⟩ ∧
    (after .tickDither ditherState).seq.increment = ⟨1073, 1073⟩ ∧
    (after .tickDither (after .tickDither ditherState)).seq.dacc = ⟨482, 482⟩ ∧
    (after .tickDither (after .tickDither ditherState)).seq.increment = ⟨1074, 1074⟩ := by decide +kernel

/-- A refused word of V2 sets BADCMD and leaves the stream; with no word left nothing happens (log 1). -/
theorem test_step : stepped (resetWithInput [0x8000000000000000, 0]) = refuse (resetWithInput [0]) ∧
    stepped State.reset = State.reset := by decide +kernel

/-- The fetch slot is the head of the stream. -/
theorem test_with_fetch_word : step (State.reset.withFetchWord 64 0x0F63000000000001) = exec (.putp 6 3 1) State.reset :=
  rfl

/-! ## Witnesses: concrete states and operands that meet the hypotheses of each obligation, clause by clause -/

/-- `s` with the words `ws` in its stream. -/
def withInput (ws : List Word) (s : State) : State := { s with input := ws }

/-- Two valid waypoint entries, a stepped pair (V26). -/
def waypointState : State := { State.reset with waypoints := ⟨[(0, 0x1BB8), (1, 0x01F4)], 2⟩ }

theorem witness_EncodeOfDecodeIsIdentity : decode 0x0A0000000FA00064 = .ok (.wpts 100 4000) := by decide +kernel

theorem witness_DecodeAcceptsExactlyTableRows :
    (opcodeRows.filter fun r => r.selects 0x0601FFFFFFFFFFFB).map OpcodeRow.mnemonic = ["SETPARAM"] ∧
    (opcodeRows.filter fun r => r.selects 0x0510000000000001) = [] := by decide +kernel

theorem witness_StepExecutesNextWord :
    (withInput [0x4100000000000000, 0] fastState).input = 0x4100000000000000 :: [0] ∧
    decode 0x4100000000000000 = .ok .tickFast := by decide +kernel

theorem witness_RefusedWordOnlySetsBadCmd :
    (∀ i, decode 0x0700000000000001 = .ok i → i.wellFormed = false) ∧
    (∀ i, decode 0x0D30000000000000 = .ok i → i.wellFormed = false) := by
  constructor
  · have h : decode 0x0700000000000001 = .error (.mustBeZero "TGLEXACT") := by decide +kernel
    rw [h]; intro i hi; cases hi
  · have h : decode 0x0D30000000000000 = .ok (.qstat 3) := by decide +kernel
    rw [h]; intro i hi; cases hi; decide

theorem witness_StepKeepsConfigurationAndExtendsTrace :
    ∃ t, step (withInput [0x4100000000000000] fastState) = .next t := ⟨_, rfl⟩

theorem witness_RunAndBadCmdStaySet :
    let s := withInput [0x1000000000000000] (refuse fastState)
    s.flags.run = true ∧ s.flags.badCmd = true ∧ ∃ t, step s = .next t := ⟨rfl, rfl, _, rfl⟩

theorem witness_ContextsWriteOnlyTheirState :
    (isTick .tickFast = true ∧ ∃ t, exec .tickFast fastState = .next t) ∧
    (isTick (.setduty 0) = false ∧ ∃ t, exec (.setduty 0) fastState = .next t) :=
  ⟨⟨rfl, _, rfl⟩, rfl, _, rfl⟩

theorem witness_StepKeepsMemoryCanonical :
    MemoryCanonical (withInput [0x1100000000000000] pendingState) ∧
    ∃ t, step (withInput [0x1100000000000000] pendingState) = .next t := by
  refine ⟨⟨?_, ?_, ?_, ?_⟩, _, rfl⟩
  · rintro ((_ | _) | (_ | _) | ⟨(_ | _ | _ | _), (_ | _)⟩ | _) <;> decide +kernel
  · decide +kernel
  · decide +kernel
  · rintro - (_ | _ | _ | _) h <;> revert h <;> decide +kernel

theorem witness_StepKeepsRegistersInRange :
    fastState.cfg.valid = true ∧ RegistersInRange (withInput [0x0F64000000000009] fastState) ∧
    ∃ t, step (withInput [0x0F64000000000009] fastState) = .next t := by
  refine ⟨by decide +kernel, ?_, _, rfl⟩
  intro r; cases r <;> decide +kernel

theorem witness_StepKeepsEnablesExclusive :
    EnablesExclusive (withInput [0x1000000000000000] fastState) ∧
    ∃ t, step (withInput [0x1000000000000000] fastState) = .next t := by
  refine ⟨?_, _, rfl⟩
  constructor <;> decide +kernel

theorem witness_StepKeepsTableSamples :
    TablesHoldSamples (withInput [0x1100000000000000] pendingState) ∧
    ∃ t, step (withInput [0x1100000000000000] pendingState) = .next t := by
  refine ⟨⟨?_, ?_, ?_, ?_, ?_, ?_⟩, _, rfl⟩
  · rintro (_ | _) <;> unfold CellsAreSamples <;> decide +kernel
  · rintro (_ | _) <;> unfold CellsAreSamples <;> decide +kernel
  · rintro (_ | _ | _ | _) (_ | _) <;> unfold CellsAreSamples <;> decide +kernel
  · unfold CellsAreSamples; decide +kernel
  · unfold CellsAreSamples; decide +kernel
  · unfold CellsAreSamples; decide +kernel

theorem witness_StepKeepsReadableTablesWritten :
    ReadableTablesWritten (withInput [0x030000000003D090] fastState) ∧
    ∃ t, step (withInput [0x030000000003D090] fastState) = .next t := by
  refine ⟨⟨?_, ?_, ?_, ?_⟩, _, rfl⟩
  · intro h; exact absurd h (by decide +kernel)
  · rintro - (_ | _ | _ | _) h (_ | _) <;> revert h <;> unfold Memory.filled <;> decide +kernel
  · intro h; exact absurd h (by decide +kernel)
  · intro h; exact absurd h (by decide +kernel)

theorem witness_StepKeepsDutyTableSums :
    pendingState.cfg.valid = true ∧ DutyTableSums (withInput [0x1100000000000000] pendingState) ∧
    DutyTableSums (withInput [0x030000000003D090] fastState) ∧
    ∃ t, step (withInput [0x1100000000000000] pendingState) = .next t := by
  refine ⟨by decide +kernel, ⟨?_, ?_⟩, ⟨?_, ?_⟩, _, rfl⟩
  · intro h; exact absurd h (by decide +kernel)
  · rintro - (_ | _ | _ | _) <;> decide +kernel
  · rintro - (_ | _ | _ | _) <;> decide +kernel
  · intro h; exact absurd h (by decide +kernel)

theorem witness_StepKeepsSequencerInRange :
    pendingState.cfg.valid = true ∧ SequencerInRange (withInput [0x4100000000000000] pendingState) ∧
    ∃ t, step (withInput [0x4100000000000000] pendingState) = .next t := by
  refine ⟨by decide +kernel, ⟨?_, ?_, ?_, ?_, ?_, ?_, ?_⟩, _, rfl⟩
  · rintro (_ | _) (_ | _ | _ | _) <;> decide +kernel
  · rintro (_ | _ | _ | _) <;> decide +kernel
  · decide +kernel
  · rintro - (_ | _ | _ | _) h <;> revert h <;> decide +kernel
  · rintro (_ | _) <;> decide +kernel
  · decide +kernel
  · rintro (_ | _) <;> decide +kernel

theorem witness_StepKeepsNoiseBounded :
    noiseState.cfg.valid = true ∧ NoiseBounded (withInput [0x4200000000007FFF] noiseState) ∧
    ∃ t, step (withInput [0x4200000000007FFF] noiseState) = .next t := by
  refine ⟨by decide +kernel, ⟨?_, ?_, ?_, ?_, ?_⟩, _, rfl⟩ <;> (try unfold inFilterRange) <;> decide +kernel

theorem witness_StepKeepsWaypointsValid :
    WaypointsValid (withInput [0x0A00000001F40BB8] waypointState) ∧
    ∃ t, step (withInput [0x0A00000001F40BB8] waypointState) = .next t := by
  refine ⟨⟨?_, ?_, ?_⟩, _, rfl⟩ <;> (try unfold Memory.filled) <;> decide +kernel

theorem witness_TglexactTogglesExact :
    fastState.params.exact = 0 ∧ (after .tglexact fastState).params.exact = 1 := by decide +kernel

theorem witness_SetparamStoresClampedValue :
    (((0 : Nibble).toNat ≤ 5 ∧ regAt 0 0 = some .sAmp ∧ (0 : Nibble).toNat ≠ 5) ∧
     ((5 : Nibble).toNat ≤ 5 ∧ regAt 5 1 = some .qDuty ∧ fastState.flags.run = true ∧ State.reset.flags.run = false)) ∧
    (5 < (6 : Nibble).toNat ∧ regAt 0 7 = none ∧ regAt 5 2 = none) := by decide +kernel

theorem witness_PutpStoresAndDerivesNothing :
    (∃ row ∈ registerTable fastState.cfg, row.a = 0 ∧ row.b = 0) ∧
    (∃ row ∈ registerTable fastState.cfg, row.a = 6 ∧ row.b = 4) ∧
    (∀ row ∈ registerTable fastState.cfg, (row.a, row.b) ≠ (6, 5)) ∧
    (∀ row ∈ registerTable fastState.cfg, (row.a, row.b) ≠ (7, 0)) := by decide +kernel

theorem witness_OperandsRefusedByValue :
    (Instr.qstat 3).wellFormed = false ∧ (Instr.qstat 2).wellFormed = true ∧
    (Instr.setparam 5 2 0).wellFormed = false ∧ (Instr.putp 6 4 0).wellFormed = true ∧
    ((6 : Nibble) ≠ 7 ∧ regAt 6 5 = none) ∧ ((15 : Nibble) ≠ 7 ∧ regAt 15 15 = none) ∧ 4 < (5 : Nibble).toNat := by
  decide +kernel

theorem witness_TglsyncHandsOverThePin :
    noiseState.params.shape.toNat = 4 ∧
    (let s : State := { fastState with params := { fastState.params with shape := 3 } }
     s.params.shape.toNat < 4 ∧ s.params.sync = 0 ∧ s.flags.run = true) ∧
    (let s : State := { fastState with params := { fastState.params with shape := 3, sync := 1 } }
     s.params.shape.toNat < 4 ∧ s.params.sync = 1 ∧ s.flags.run = true) ∧
    (State.reset.params.shape.toNat < 4 ∧ State.reset.params.sync = 0 ∧ State.reset.flags.run = false) := by decide +kernel

theorem witness_WptAppendsOneEntry :
    (withCount 4095).waypoints.count.toNat < 4096 ∧ 4096 ≤ (withCount 4096).waypoints.count.toNat := by decide +kernel

theorem witness_WptsAppendsSteppedPair :
    (withCount 4094).waypoints.count.toNat + 2 ≤ 4096 ∧ 4096 < (withCount 4095).waypoints.count.toNat + 2 := by
  decide +kernel

theorem witness_QstatRespondsWithStatus : 2 < (3 : Nibble).toNat ∧ 2 < (15 : Nibble).toNat := by decide

theorem witness_GetpRespondsWithRegister :
    regAt 6 4 = some .sync ∧ (15 : Nibble) ≠ 7 ∧ regAt 15 0 = none ∧ (6 : Nibble) ≠ 7 ∧ regAt 6 5 = none := by decide +kernel

theorem witness_FgstepCompletesPhaseB :
    fastState.flags.pend = false ∧ pendingState.flags.pend = true ∧ pendingState.seq.fastMode = .fast .t3 := by
  decide +kernel

theorem witness_HostWritesFinishPendingFirst :
    isTick (.setduty 0) = false ∧ (Instr.setduty 0).wellFormed = true ∧ Instr.setduty 0 ≠ .nop ∧
    (∀ a, Instr.setduty 0 ≠ .qstat a) ∧ ∀ a b, Instr.setduty 0 ≠ .getp a b :=
  ⟨rfl, rfl, (by decide), (fun _ h => by cases h), fun _ _ h => by cases h⟩

theorem witness_CommitWithoutPhases :
    (State.reset.flags.pend = false ∧ State.reset.flags.run = false) ∧
    (noiseState.flags.pend = false ∧ noiseState.flags.run = true ∧ noiseState.params.shape.toNat = 4) ∧
    (let s : State := { fastState with params := { fastState.params with shape := 3, fTarget := 39999999999 } }
     s.flags.pend = false ∧ s.flags.run = true ∧ s.params.shape.toNat < 4 ∧ selectTier s ≠ s.seq.fastMode) := by
  decide +kernel

theorem witness_CommitPhaseAWritesTheOtherHalf :
    fastState.flags.pend = false ∧ fastState.flags.run = true ∧ fastState.params.shape.toNat < 4 ∧
    selectTier fastState = fastState.seq.fastMode ∧ fastState.seq.fastMode ≠ .fast .t0 ∧
    fastState.seq.fastMode = .fast .t3 ∧ 15 < samplesPerCycle .t3 := by decide +kernel

theorem witness_ApplyStartsTheSelectedWave :
    (fastState.cfg.valid = true ∧ fastState.params.shape.toNat < 4 ∧
      (after .applyAll fastState).seq.fastMode = .fast .t3 ∧ fastState.params.sync = 0 ∧
      fastState.cfg.usqT3 ≤ fastState.params.qFreq.toNat) ∧
    (let s : State := { slowState with params := { slowState.params with sync := 1 } }
     s.cfg.valid = true ∧ s.params.shape.toNat < 4 ∧ (after .applyAll s).seq.fastMode = .slow ∧ s.params.sync = 1) ∧
    (let s : State := { slowState with params := { slowState.params with exact := 1, fTarget := 50000000000, qFreq := 1000 } }
     s.cfg.valid = true ∧ s.params.shape.toNat < 4 ∧ (after .applyAll s).seq.fastMode = .slow ∧ s.params.sync = 0 ∧
       s.params.qFreq.toNat < s.cfg.usqT3) := by decide +kernel

theorem witness_ApplyFillsTheTables : fastState.params.shape.toNat < 4 ∧
    (after .applyAll fastState).seq.fastMode = .fast .t3 ∧ 15 < samplesPerCycle .t3 ∧
    countFor fastState.cfg 0 .first .t3 = 0 ∧ countFor fastState.cfg 1000000 .first .t3 = 16 := by decide +kernel

/-- R288's examples: TC = 525 at 50 % gives 252, TC = 210 gives 95, also at an extreme duty. -/
theorem witness_ApplyDerivesTheRegisters :
    (let t := after .applyAll { State.reset with params := { State.reset.params with fTarget := 1000000000 } }
     t.cfg.valid = true ∧ t.params.shape.toNat < 4 ∧ t.params.duty.toNat ≤ 1000000 ∧ t.seq.fastMode = .fast .t0 ∧
       rdivNat (t.cfg.fTimer * 1000000) (525 * samplesPerCycle .t0) < 2 ^ 48 ∧ t.derived.tc = 525 ∧
       t.derived.sqDelay = 252 ∧ 252 < 2 ^ 32) ∧
    (let t := after .applyAll slowState
     t.seq.fastMode = .slow ∧ t.cfg.tcSlow < 2 ^ 32 ∧ t.derived.fActual = 100000000 ∧ 100000000 < 2 ^ 48 ∧
       t.seq.ratio.get .first = 65536 ∧ 65536 < 2 ^ 52 ∧ t.derived.sqDelay = 95) ∧
    (let t := after .applyAll { slowState with params := { slowState.params with duty := 0, exact := 1 } }
     t.seq.fastMode = .slow ∧ t.flags.extreme = true ∧ t.derived.dutyA = 0 ∧ t.derived.sqDelay = 95) := by
  decide +kernel

theorem witness_ApplyStartsNoise : noiseState.params.shape.toNat = 4 := by decide +kernel

theorem witness_SquareWaveFollowsBankFive :
    fastState.cfg.valid = true ∧ fastState.flags.run = true ∧ fastState.params.sync = 0 ∧ (1 : Nibble).toNat ≤ 1 ∧
    fastState.cfg.usqT3 ≤ (after (.setparam 5 0 163000000) fastState).params.qFreq.toNat ∧
    (after (.setparam 5 0 162999999) fastState).params.qFreq.toNat < fastState.cfg.usqT3 ∧
    clampNat (rdivNat (fastState.cfg.fPwm * 1000000) (2 ^ 3 * 163000000)) 2 fastState.cfg.pwmPerMax < 2 ^ 16 := by
  decide +kernel

theorem witness_DisabledTicksAreIgnored :
    State.reset.flags.enSlow = false ∧ State.reset.flags.enFast = false ∧ State.reset.flags.enNoise = false ∧
    State.reset.flags.enUsq = false ∧ slowState.flags.enSlow = true ∧ slowState.flags.ditherOn = false := by decide +kernel

theorem witness_TickSlowFollowsItsRule : State.reset.flags.enSlow = false ∧
    (let s : State := { slowState with seq := { slowState.seq with waveBit := BitVec.ofNat 32 (2 ^ 32 - 1 - 2147484) } }
     s.flags.enSlow = true ∧ s.seq.waveBit.toNat + (s.seq.increment.get s.seq.half).toNat < 2 ^ 32) ∧
    (let s : State := { slowState with seq := { slowState.seq with waveBit := BitVec.ofNat 32 (2 ^ 32 - 2147484) } }
     s.flags.enSlow = true ∧ 2 ^ 32 ≤ s.seq.waveBit.toNat + (s.seq.increment.get s.seq.half).toNat ∧
       s.flags.extreme = false) ∧
    (let s : State := { slowState with
        seq := { slowState.seq with half := .second, waveBit := BitVec.ofNat 32 (2 ^ 32 - 2147484) }
        flags := { slowState.flags with extreme := true }
        derived := { slowState.derived with dutyA := 0 } }
     s.flags.enSlow = true ∧ 2 ^ 32 ≤ s.seq.waveBit.toNat + (s.seq.increment.get s.seq.half).toNat ∧
       s.flags.extreme = true ∧ s.seq.half = if s.derived.dutyA = 0 then .second else .first) := by decide +kernel

theorem witness_TickFastFollowsItsRule : State.reset.flags.enFast = false ∧
    fastState.flags.enFast = true ∧ fastState.seq.fastMode = .fast .t3 ∧
    (let s : State := { fastState with seq := { fastState.seq with seqIdx := 6 } }
     s.seq.seqIdx.toNat + 1 < s.seq.seqLen.toNat) ∧
    (let s : State := { fastState with seq := { fastState.seq with seqIdx := 7 } }
     s.seq.seqLen.toNat ≤ s.seq.seqIdx.toNat + 1 ∧ 0 < dutyCount s s.seq.half.other .t3) ∧
    (let s : State := { fastState with
        seq := { fastState.seq with half := .second, seqIdx := 15, seqLen := 16 }
        tables := { fastState.tables with dutyT := ⟨⟨0, 0, 0, 0⟩, ⟨160, 80, 40, 16⟩⟩ } }
     s.seq.seqLen.toNat ≤ s.seq.seqIdx.toNat + 1 ∧ dutyCount s s.seq.half.other .t3 = 0) := by decide +kernel

theorem witness_TickDitherSpreadsTheFraction :
    let s : State := { ditherState with seq := { ditherState.seq with dacc := ⟨0, 999⟩, incFrac := ⟨0, 999⟩ } }
    (slowState.flags.enSlow = false ∨ slowState.flags.ditherOn = false) ∧
    s.flags.enSlow = true ∧ s.flags.ditherOn = true ∧ (∀ h, s.seq.dacc.get h < 1000) ∧
    ∀ h, s.seq.incFrac.get h < 1000 := by
  refine ⟨.inr rfl, rfl, rfl, ?_, ?_⟩ <;> rintro (_ | _) <;> decide +kernel

theorem witness_TickUsqTogglesAtCarry : State.reset.flags.enUsq = false ∧
    usqState.flags.enUsq = true ∧
    (let u : Usq := { usqState.usq with acc := BitVec.ofNat 32 (2 ^ 32 - 1 - 4294967) }
     u.acc.toNat + (u.inc.get u.half).toNat < 2 ^ 32) ∧
    (let u : Usq := { usqState.usq with acc := BitVec.ofNat 32 (2 ^ 32 - 4294967) }
     2 ^ 32 ≤ u.acc.toNat + (u.inc.get u.half).toNat ∧ u.ext = false) ∧
    (let u : Usq := { usqState.usq with acc := BitVec.ofNat 32 (2 ^ 32 - 4294967), ext := true }
     2 ^ 32 ≤ u.acc.toNat + (u.inc.get u.half).toNat ∧ u.ext = true) := by decide +kernel

theorem witness_TickNoiseFiltersAndOutputs : State.reset.flags.enNoise = false ∧ noiseState.flags.enNoise = true := ⟨rfl, rfl⟩

theorem witness_DutyCountsMakeACycle : Cfg.ref.valid = true ∧ 0 ≤ 1000000 ∧ 1000000 ≤ 1000000 ∧
    (0 < 1 ∧ 1 < 1000000) ∧ countFor Cfg.ref 1 .first .t3 = 1 ∧ countFor Cfg.ref 999999 .second .t3 = 1 := by decide +kernel

/-- The last divisor of tier 0 that V12 counts, and the first after it. -/
theorem witness_FreqToTcInvertsTcToFreq :
    Cfg.ref.valid = true ∧ Cfg.ref.tcMin ≤ 724568 ∧ 724568 ≤ Cfg.ref.tcMax ∧
    724568 * (724568 + 1) * samplesPerCycle .t0 ≤ Cfg.ref.fTimer * 1000000 ∧
    ¬ 724569 * (724569 + 1) * samplesPerCycle .t0 ≤ Cfg.ref.fTimer * 1000000 := by decide +kernel

/-- The bounds with the calibration factor and without it, at F_MAX. -/
theorem witness_SlowPathReportsTargetAtHalfDuty :
    Cfg.ref.valid = true ∧ 0 < 100000000000 ∧
    (fSlow Cfg.ref * 1000 * Cfg.ref.calDen ≤ 2 ^ 32 * Cfg.ref.calNum ∧
      100000000000 * Cfg.ref.calNum * 2 ^ 33 ≤ (2 ^ 32 - 1) * 1000 * (Cfg.ref.calDen * fSlow Cfg.ref * 1000)) ∧
    (fSlow Cfg.ref * 1000 * 1 ≤ 2 ^ 32 * 1 ∧
      100000000000 * 1 * 2 ^ 33 ≤ (2 ^ 32 - 1) * 1000 * (1 * fSlow Cfg.ref * 1000)) := by decide +kernel

theorem witness_CompositeWithoutArbitraryIsPlainSum :
    let s : State := { State.reset with params := { State.reset.params with shape := 3 } }
    s.params.shape.toNat = 3 ∧ s.params.cWa = 0 ∧ 4095 < 4096 := by decide +kernel

theorem witness_ArbitrarySourcePassesThroughPositions :
    let ps : List Position := [⟨0, 0, false⟩, ⟨4095, 4095, false⟩]
    ps.length ≤ 4096 ∧ ps[1]? = some ⟨4095, 4095, false⟩ := by decide +kernel

end Sys2Proof.Tests
end

section
/-! What reset leaves (10_state.md R49): the FLAGS view, the tables and the DutyTable, each read through the accessor the
machine reads it with, and the obligation assembled from them. -/

namespace Sys2Proof.Machine

@[simp] theorem bitsValue_replicate_false (n : Nat) : bitsValue (List.replicate n false) = 0 := by
  induction n with
  | zero => rfl
  | succ n ih => simp [List.replicate_succ, bitsValue, ih]

/-- Every one of the 17 bits of R36, HALF and USQ_HALF among them, is clear. -/
theorem flagBits_resetWith (c : Cfg) : flagBits (State.resetWith c) = List.replicate 17 false := rfl

@[simp] theorem flagsView_resetWith (c : Cfg) : flagsView (State.resetWith c) = 0 := by
  rw [flagsView, flagBits_resetWith, bitsValue_replicate_false]
  rfl

/-- No cell of any table has a value at reset (10_state.md R49, log 3). -/
@[simp] theorem tableOf_resetWith (c : Cfg) (sp : Space) : tableOf (State.resetWith c) sp = [] := by
  rcases sp with h | h | ⟨t, h⟩ | _
  · cases h <;> rfl
  · cases h <;> rfl
  · cases t <;> cases h <;> rfl
  · rfl

@[simp] theorem dutyCount_resetWith (c : Cfg) (h : Half) (t : Tier) : dutyCount (State.resetWith c) h t = 0 := by
  cases h <;> cases t <;> rfl

/-- Settles O22: the parameter registers one by one, FLAGS, the tables and the DutyTable by their lemmas; every other row
of R49 is a field of the reset state. -/
theorem resetLeavesTheSpecValues : Obligations.ResetLeavesTheSpecValues := by
  intro c
  refine ⟨fun r => ?register, rfl, flagsView_resetWith c, rfl, rfl, rfl, rfl, rfl, rfl, rfl, rfl,
    dutyCount_resetWith c, tableOf_resetWith c, rfl⟩
  case register => cases r <;> rfl

end Sys2Proof.Machine
end

section
/-! Refused words (30_encoding.md R101, R103, R104): which operand values an operation refuses, as syntax and as the
meanings see it, what a refusal does, and that an operation that accepts its operands leaves BADCMD alone. -/

namespace Sys2Proof.Machine

/-! ### The operand values that are refused -/

/-- No register lies above bank 6 (10_state.md R28). -/
theorem regAt_eq_none_of_six_lt (a b : Nibble) (h : 6 < a.toNat) : regAt a b = none := by
  rw [Option.eq_none_iff_forall_ne_some]
  intro r hr
  have := regAt_bank_le a b r hr
  omega

/-- QSTAT accepts the selectors it has an answer for (30_encoding.md R103). -/
theorem wellFormed_qstat (a : Nibble) (s : State) : (Instr.qstat a).wellFormed = (qstatValue s a).isSome := by
  unfold qstatValue
  split <;> simp_all [Instr.wellFormed]
  omega

/-- SETPARAM accepts the (A, B) of the registers it may write (30_encoding.md R104). -/
theorem wellFormed_setparam (a b : Nibble) (imm : Imm) :
    (Instr.setparam a b imm).wellFormed = (paramReg a b).isSome := by
  unfold paramReg
  split
  · simp [Instr.wellFormed]; omega
  · simp [Instr.wellFormed, regAt_isSome]; omega

/-- PUTP accepts the (A, B) of every register (30_encoding.md R104). -/
theorem wellFormed_putp (a b : Nibble) (imm : Imm) : (Instr.putp a b imm).wellFormed = (regAt a b).isSome := by
  by_cases ha : 6 < a.toNat
  · simp [Instr.wellFormed, regAt_eq_none_of_six_lt a b ha, ha]
  · simp [Instr.wellFormed, regAt_isSome]; omega

/-- QSTAT, SETPARAM and PUTP are the only operations that refuse an operand (30_encoding.md R103, R104). -/
theorem wellFormed_eq_false_iff (i : Instr) :
    i.wellFormed = false ↔
      (∃ a, i = .qstat a ∧ 2 < a.toNat) ∨
      (∃ a b v, i = .setparam a b v ∧ (5 < a.toNat ∨ regAt a b = none)) ∨
      (∃ a b v, i = .putp a b v ∧ (6 < a.toNat ∨ regAt a b = none)) := by
  cases i
  case qstat a => simp [Instr.wellFormed]
  case setparam a b imm => simp [wellFormed_setparam, paramReg, imp_iff_not_or]
  case putp a b imm => simpa [wellFormed_putp] using regAt_eq_none_of_six_lt a b
  all_goals simp [Instr.wellFormed]

/-! ### What a refusal does (30_encoding.md R101) -/

theorem exec_qstat_of_none (a : Nibble) (s : State) (h : qstatValue s a = none) :
    exec (.qstat a) s = .next (refuse s) := by
  simp [exec, execQstat, h]

theorem exec_setparam_of_none (a b : Nibble) (imm : Imm) (s : State) (h : paramReg a b = none) :
    exec (.setparam a b imm) s = .next (refuse s) := by
  simp [exec, execSetparam, h]

theorem exec_putp_of_none (a b : Nibble) (imm : Imm) (s : State) (h : regAt a b = none) :
    exec (.putp a b imm) s = .next (refuse s) := by
  simp [exec, execPutp, h]

/-- Operand values that are not well formed are refused. -/
theorem exec_of_not_wellFormed (i : Instr) (s : State) (h : i.wellFormed = false) : exec i s = .next (refuse s) := by
  obtain ⟨a, rfl, -⟩ | ⟨a, b, v, rfl, -⟩ | ⟨a, b, v, rfl, -⟩ := (wellFormed_eq_false_iff i).mp h
  · exact exec_qstat_of_none a s (by simpa [wellFormed_qstat a s] using h)
  · exact exec_setparam_of_none a b v s (by simpa [wellFormed_setparam] using h)
  · exact exec_putp_of_none a b v s (by simpa [wellFormed_putp] using h)

/-! ### A tick writes no flag -/

@[simp] theorem slowSample_flags (s : State) : (slowSample s).flags = s.flags := by
  unfold slowSample
  simp only
  split
  · unfold slowBoundary
    simp only
    split <;> simp
  · simp

@[simp] theorem endHalf_flags (t : Tier) (s : State) : (endHalf t s).flags = s.flags := by
  unfold endHalf
  simp only [latchLength_flags]
  split <;> simp

@[simp] theorem fastSample_flags (t : Tier) (s : State) : (fastSample t s).flags = s.flags := by
  unfold fastSample
  simp only
  split <;> simp

@[simp] theorem noiseTick_flags (rnd : BitVec 32) (s : State) : (noiseTick rnd s).flags = s.flags := by
  simp [noiseTick]

@[simp] theorem usqSample_flags (s : State) : (usqSample s).flags = s.flags := by
  unfold usqSample
  simp only
  split
  · unfold usqBoundary
    split <;> simp
  · simp

/-! ### The parts of the host commands leave BADCMD as it was -/

/-- Storing a register and running `Update`, for any value: the checker then never computes the value stored. -/
theorem update_writeReg_flags_badCmd (r : Reg) (v : Int) (s : State) :
    (update (writeReg r v (finishPending s))).flags.badCmd = s.flags.badCmd := by
  simp

@[simp] theorem selectShape_flags_badCmd (a : Nibble) (s : State) :
    (selectShape a s).flags.badCmd = s.flags.badCmd := by
  unfold selectShape switchSync
  simp only [writeReg_flags]
  split
  · simp
  · split <;> simp

@[simp] theorem afterParam_flags_badCmd (a : Nibble) (s : State) : (afterParam a s).flags.badCmd = s.flags.badCmd := by
  unfold afterParam
  split
  · split <;> simp
  · simp

@[simp] theorem toggleSync_flags_badCmd (s : State) : (toggleSync s).flags.badCmd = s.flags.badCmd := by
  unfold toggleSync toggleReg
  simp only
  split <;> simp

@[simp] theorem holdSync_flags_badCmd (s : State) : (holdSync s).flags.badCmd = s.flags.badCmd := by
  unfold holdSync
  split <;> simp

/-- An operation that accepts its operands leaves BADCMD as it was. -/
theorem exec_of_wellFormed_keeps_badCmd (i : Instr) (s : State) (hi : i.wellFormed = true) :
    ∃ t, exec i s = .next t ∧ t.flags.badCmd = s.flags.badCmd := by
  cases i
  case nop => exact ⟨_, rfl, rfl⟩
  case setfreq imm => exact ⟨_, rfl, update_writeReg_flags_badCmd _ _ s⟩
  case setper imm => exact ⟨_, rfl, update_writeReg_flags_badCmd _ _ s⟩
  case setduty imm => exact ⟨_, rfl, update_writeReg_flags_badCmd _ _ s⟩
  case setpw imm => exact ⟨_, rfl, update_writeReg_flags_badCmd _ _ s⟩
  case setshape a => exact ⟨_, rfl, by split <;> simp⟩
  case setparam a b imm =>
    obtain ⟨r, hr⟩ := Option.isSome_iff_exists.mp ((wellFormed_setparam a b imm).symm.trans hi)
    exact ⟨_, rfl, by simp [hr]⟩
  case tglexact => exact ⟨_, rfl, update_writeReg_flags_badCmd _ _ s⟩
  case tglsync => exact ⟨_, rfl, by simp only; split <;> simp⟩
  case wpt v => exact ⟨_, rfl, by simp only; split <;> simp⟩
  case wpts v w => exact ⟨_, rfl, by simp only; split <;> simp⟩
  case qstat a =>
    obtain ⟨v, hv⟩ := Option.isSome_iff_exists.mp ((wellFormed_qstat a s).symm.trans hi)
    exact ⟨_, rfl, by simp [hv]⟩
  case putp a b imm =>
    obtain ⟨r, hr⟩ := Option.isSome_iff_exists.mp ((wellFormed_putp a b imm).symm.trans hi)
    exact ⟨_, rfl, by simp [hr]⟩
  case tickSlow => exact ⟨_, rfl, by split <;> simp⟩
  case tickFast =>
    refine ⟨_, rfl, ?_⟩
    split
    · split <;> simp
    · rfl
  case tickNoise rnd => exact ⟨_, rfl, by split <;> simp⟩
  case tickUsq => exact ⟨_, rfl, by split <;> simp⟩
  case tickDither => exact ⟨_, rfl, by split <;> simp⟩
  all_goals exact ⟨_, rfl, by simp⟩

/-! ### Operand values that are read as others, not refused (30_encoding.md R103, R104) -/

theorem getpValue_of_none (s : State) (a b : Nibble) (ha : a ≠ 7) (h : regAt a b = none) : getpValue s a b = 0 := by
  have h7 : a.toNat ≠ 7 := fun e => ha (BitVec.eq_of_toNat_eq e)
  simp [getpValue, h, h7]

theorem selectShape_of_four_lt (a : Nibble) (s : State) (h : 4 < a.toNat) : selectShape a s = selectShape 4 s := by
  have ha : min a.toNat 4 = min (4 : Nibble).toNat 4 := by simp; omega
  simp only [selectShape, ha]

/-- Settles O30: which operand values are refused is read off the syntax, and each meaning refuses just those. -/
theorem operandsRefusedByValue : Obligations.OperandsRefusedByValue := by
  intro i s
  refine ⟨wellFormed_eq_false_iff i, exec_of_not_wellFormed i s, exec_of_wellFormed_keeps_badCmd i s,
    ?getp, ?setshape⟩
  case getp =>
    rintro a b rfl ha h
    simp [exec, execGetp, emit, responseWord, getpValue_of_none s a b ha h]
  case setshape =>
    rintro a rfl ha
    simp only [exec, execSetshape, selectShape_of_four_lt a s ha]

/-! ### The step of a refused word -/

theorem instrOf_eq_some_iff (w : Word) (i : Instr) : instrOf w = some i ↔ decode w = .ok i := by
  unfold instrOf
  split <;> simp [*]

theorem step_of_instrOf_some (s : State) (w : Word) (rest : List Word) (i : Instr) (hs : s.input = w :: rest)
    (hw : instrOf w = some i) : step s = exec i (setInput rest s) := by
  simp [step, hs, hw]

theorem step_of_instrOf_none (s : State) (w : Word) (rest : List Word) (hs : s.input = w :: rest)
    (hw : instrOf w = none) : step s = .next (refuse (setInput rest s)) := by
  simp [step, hs, hw]

/-- Settles O7: a word that selects no row is refused by the step itself, and one with refused operand values by its
operation. -/
theorem refusedWordOnlySetsBadCmd : Obligations.RefusedWordOnlySetsBadCmd := by
  intro s w rest hs href
  change step s = .next (refuse (setInput rest s))
  cases hw : instrOf w with
  | none => exact step_of_instrOf_none s w rest hs hw
  | some i =>
    rw [step_of_instrOf_some s w rest i hs hw]
    exact exec_of_not_wellFormed i _ (href i ((instrOf_eq_some_iff w i).mp hw))

end Sys2Proof.Machine
end

section
/-! SETFREQ, SETPER and TGLEXACT (40_clock_and_tier.md R125 to R127): each completes phase B, stores one clamped register and
runs `Update`. What that sequence does is said once, for any register and value; each instruction adds the value it
stores. -/

namespace Sys2Proof.Machine

/-! ### Storing one register and running `Update` -/

/-- A register write leaves as it was everything `HostFrame` names. -/
theorem hostFrame_writeReg (r : Reg) (v : Int) (s : State) : HostFrame s (writeReg r v s) where
  waypoints := rfl
  nfFast := rfl
  nfSlow := rfl
  nfAvg := rfl
  nfCnt := rfl
  dacOut := rfl
  run := rfl
  badCmd := rfl
  uploadTrunc := rfl
  priorSync := rfl
  input := rfl
  cfg := rfl
  trace := addsOnlySquareLevels_refl s

/-- The parameter registers after the sequence: the one stored, clamped to its range (10_state.md R29), and no other. -/
theorem update_writeReg_params (r : Reg) (v : Int) (s : State) :
    (update (writeReg r v (finishPending s))).params =
      setReg s.params r (BitVec.ofInt 48 (clamp v (regLo s.cfg r) (regHi s.cfg r))) := by
  simp

/-- The state after the sequence is `Update` of the state after phase B with the register stored. -/
theorem update_writeReg_eq (r : Reg) (v : Int) (s : State) :
    update (writeReg r v (finishPending s)) =
      update { finishPending s with params := (update (writeReg r v (finishPending s))).params } := by
  rw [update_params]
  rfl

theorem hostFrame_update_writeReg (r : Reg) (v : Int) (s : State) :
    HostFrame s (update (writeReg r v (finishPending s))) :=
  hostFrame_trans _ _ _ (hostFrame_finishPending s)
    (hostFrame_trans _ _ _ (hostFrame_writeReg r v _) (hostFrame_update _))

/-- An instruction that stores `v` in register `r` between phase B and `Update` does what the statements about such
instructions ask, once `p` is found to be the parameter registers it leaves. -/
theorem storesAndUpdates_of_exec (i : Instr) (s : State) (r : Reg) (v : Int) (p : Params)
    (hi : exec i s = .next (update (writeReg r v (finishPending s))))
    (hp : setReg s.params r (BitVec.ofInt 48 (clamp v (regLo s.cfg r) (regHi s.cfg r))) = p) :
    ∃ t : State, exec i s = .next t ∧ t = update { finishPending s with params := t.params } ∧ t.params = p ∧
      HostFrame s t :=
  ⟨_, hi, update_writeReg_eq r v s, (update_writeReg_params r v s).trans hp, hostFrame_update_writeReg r v s⟩

/-! ### The values stored -/

/-- On natural numbers the rounded quotient is the natural one (00_scope.md R12). -/
theorem rdiv_natCast (a b : Nat) : rdiv (a : Int) b = (rdivNat a b : Int) := by
  rcases Nat.eq_zero_or_pos a with rfl | ha
  · have h0 : b / (2 * b) = 0 := Nat.div_eq_zero_iff.mpr (by omega)
    simp [rdiv, rdivNat, h0]
  · rw [rdiv, rdivNat, Int.sign_eq_one_of_pos (by omega), one_mul, Int.natAbs_natCast]

/-- The frequency of a period as R126 writes it, over the integers. -/
theorem periodFreq_natCast (c : Cfg) (ms : Nat) :
    (periodFreq c ms : Int) = if ms = 0 then (c.fMax : Int) else rdiv 1000000000 ms := by
  have hq : rdiv 1000000000 ms = (rdivNat 1000000000 ms : Int) := rdiv_natCast 1000000000 ms
  rw [periodFreq, hq]
  split <;> rfl

/-- On a 0/1 register `1 - x` lies in the range 0..1, so the clamp keeps it (40_clock_and_tier.md R127). -/
theorem clamped_one_sub_bit (x : Imm) (hx : x = 0 ∨ x = 1) :
    BitVec.ofInt 48 (clamp (1 - (x.toNat : Int)) 0 1) = if x = 0 then 1 else 0 := by
  obtain rfl | rfl := hx <;> decide

/-! ### The instructions -/

/-- Settles O23: the range of F_TARGET is F_MIN to F_MAX. -/
theorem setfreqStoresClampedTarget : Obligations.SetfreqStoresClampedTarget := by
  intro imm s
  exact storesAndUpdates_of_exec _ s .fTarget (zextImm imm) _ rfl rfl

/-- Settles O24: the model's natural quotient is `rdiv` of R126. -/
theorem setperStoresPeriodFrequency : Obligations.SetperStoresPeriodFrequency := by
  intro imm s
  refine storesAndUpdates_of_exec _ s .fTarget (periodFreq s.cfg (zextImm imm)) _ rfl ?_
  rw [periodFreq_natCast]
  rfl

/-- TGLEXACT stores `1 - EXACT`, of the EXACT before it: phase B writes no parameter register. -/
theorem exec_tglexact (s : State) :
    exec .tglexact s = .next (update (writeReg .exact (1 - (s.params.exact.toNat : Int)) (finishPending s))) := by
  simp only [exec, execTglexact, toggleReg, finishPending_params]
  rfl

/-- Settles O27: on a 0/1 register `1 - x` is the other bit. -/
theorem tglexactTogglesExact : Obligations.TglexactTogglesExact := by
  intro s hbit
  refine storesAndUpdates_of_exec _ s .exact _ _ (exec_tglexact s) ?_
  rw [← clamped_one_sub_bit s.params.exact hbit]
  rfl

end Sys2Proof.Machine
end

section
/-! SETPARAM, WPT, WPTS and WPCLR (41_wavetable_builder.md R151 to R153, R155): the three ways SETPARAM ends after its
write, what a waypoint write does to every cell, and what each of the four commands comes to in each of its cases. -/

namespace Sys2Proof.Machine

/-! ### What SETPARAM runs after the write -/

theorem afterParam_of_otherBank (a : Nibble) (s : State) (ha : a.toNat ≠ 5) : afterParam a s = update s := by
  rw [afterParam, if_neg ha]

theorem afterParam_of_running (a : Nibble) (s : State) (ha : a.toNat = 5) (hr : s.flags.run = true) :
    afterParam a s = deriveSquare s := by
  rw [afterParam, if_pos ha, if_pos hr]

theorem afterParam_of_stopped (a : Nibble) (s : State) (ha : a.toNat = 5) (hr : s.flags.run = false) :
    afterParam a s = s := by
  rw [afterParam, if_pos ha, if_neg (by simp [hr])]

/-- Everything `afterParam` can do. -/
theorem afterParam_cases (a : Nibble) (s : State) :
    afterParam a s = update s ∨ afterParam a s = deriveSquare s ∨ afterParam a s = s := by
  by_cases ha : a.toNat = 5
  · cases hr : s.flags.run with
    | true => exact .inr (.inl (afterParam_of_running a s ha hr))
    | false => exact .inr (.inr (afterParam_of_stopped a s ha hr))
  · exact .inl (afterParam_of_otherBank a s ha)

@[simp] theorem afterParam_params (a : Nibble) (s : State) : (afterParam a s).params = s.params := by
  obtain h | h | h := afterParam_cases a s <;> simp [h]

/-- What runs after the write adds nothing `HostFrame` forbids to what was done before it. -/
theorem hostFrame_afterParam (a : Nibble) (s t : State) (h : HostFrame s t) : HostFrame s (afterParam a t) := by
  obtain e | e | e := afterParam_cases a t <;> rw [e]
  · exact hostFrame_trans _ _ _ h (hostFrame_update t)
  · exact hostFrame_trans _ _ _ h (hostFrame_deriveSquare t)
  · exact h

/-! ### SETPARAM -/

/-- SETPARAM may write the registers of banks 0..5 (30_encoding.md R104). -/
theorem paramReg_of_bank_le (a b : Nibble) (ha : a.toNat ≤ 5) : paramReg a b = regAt a b := by
  rw [paramReg, if_neg (by omega)]

theorem paramReg_eq_none (a b : Nibble) (h : 5 < a.toNat ∨ regAt a b = none) : paramReg a b = none := by
  rw [paramReg]
  split
  · rfl
  · exact h.resolve_left ‹_›

theorem exec_setparam_of_some (a b : Nibble) (imm : Imm) (s : State) (r : Reg) (h : paramReg a b = some r) :
    exec (.setparam a b imm) s = .next (afterParam a (writeReg r imm.toInt (finishPending s))) := by
  simp only [exec, execSetparam, h]
  rfl

theorem hostFrame_writeReg_finishPending (r : Reg) (v : Int) (s : State) :
    HostFrame s (writeReg r v (finishPending s)) :=
  hostFrame_trans _ _ _ (hostFrame_finishPending s) (hostFrame_writeReg r v _)

/-- The parameter registers SETPARAM leaves: the one stored, clamped to its range (10_state.md R29), and no other. -/
theorem afterParam_writeReg_params (a : Nibble) (r : Reg) (v : Int) (s : State) :
    (afterParam a (writeReg r v (finishPending s))).params =
      setReg s.params r (BitVec.ofInt 48 (clamp v (regLo s.cfg r) (regHi s.cfg r))) := by
  simp

/-- The state of SETPARAM after its write is the one after phase B with the registers SETPARAM leaves. -/
theorem writeReg_eq_withAfterParam (a : Nibble) (r : Reg) (v : Int) (s : State) :
    writeReg r v (finishPending s) =
      { finishPending s with params := (afterParam a (writeReg r v (finishPending s))).params } := by
  rw [afterParam_params]
  rfl

/-- Settles O28: the registers are those of the write, which nothing that runs after it touches. -/
theorem setparamStoresClampedValue : Obligations.SetparamStoresClampedValue := by
  intro a b imm s
  refine ⟨fun r ha hr => ?stored, fun h => exec_setparam_of_none a b imm s (paramReg_eq_none a b h)⟩
  case stored =>
    have hparams := afterParam_writeReg_params a r imm.toInt s
    have hwrite := writeReg_eq_withAfterParam a r imm.toInt s
    have hrun : (writeReg r imm.toInt (finishPending s)).flags.run = s.flags.run := finishPending_flags_run s
    refine ⟨_, exec_setparam_of_some a b imm s r ((paramReg_of_bank_le a b ha).trans hr),
      ?value, fun q hq => ?others, fun h5 => ?wave, fun h5 hr => ?running, fun h5 hr => ?stopped,
      hostFrame_afterParam a _ _ (hostFrame_writeReg_finishPending r imm.toInt s)⟩
    case value => rw [hparams, getReg_setReg_same]
    case others => rw [hparams, getReg_setReg_other _ _ _ _ hq]
    case wave => exact (afterParam_of_otherBank a _ h5).trans (congrArg update hwrite)
    case running => exact (afterParam_of_running a _ h5 (hrun.trans hr)).trans (congrArg deriveSquare hwrite)
    case stopped => exact (afterParam_of_stopped a _ h5 (hrun.trans hr)).trans hwrite

/-! ### Reading the waypoint memory (20_memory.md R66) -/

@[simp] theorem tableOf_writeWaypoint (i : Nat) (isStep : Bool) (v : Sample) (s : State) :
    tableOf (writeWaypoint i isStep v s) .wp =
      Memory.write (tableOf s .wp) i ((0#3) ++ BitVec.ofBool isStep ++ v) := rfl

theorem readCell_writeWaypoint_same (i : Nat) (isStep : Bool) (v : Sample) (s : State) :
    readCell (writeWaypoint i isStep v s) .wp i = (0#3) ++ BitVec.ofBool isStep ++ v :=
  readCell_of_find _ _ _ _ (by simp)

theorem readCell_writeWaypoint_other (i j : Nat) (isStep : Bool) (v : Sample) (s : State) (h : j ≠ i) :
    readCell (writeWaypoint i isStep v s) .wp j = readCell s .wp j := by
  simp [readCell, Memory.find_write_other _ _ _ _ h]

@[simp] theorem readCell_setWpCount (n : Nat) (s : State) (sp : Space) (i : Nat) :
    readCell (setWpCount n s) sp i = readCell s sp i :=
  readCell_congr _ _ _ _ (by cases sp <;> rfl)

@[simp] theorem readCell_finishPending_wp (s : State) (i : Nat) :
    readCell (finishPending s) .wp i = readCell s .wp i :=
  readCell_congr _ _ _ _ (by simp [tableOf])

/-- WP_COUNT has 13 bits, enough for a full waypoint memory. -/
theorem setWpCount_count_toNat (n : Nat) (s : State) (h : n ≤ 4096) :
    (setWpCount n s).waypoints.count.toNat = n := by
  rw [setWpCount_waypoints_count, BitVec.toNat_ofNat, Nat.mod_eq_of_lt (by omega)]

/-! ### The waypoint commands -/

theorem exec_wpt_of_fits (v : Sample) (s : State) (h : s.waypoints.count.toNat < 4096) :
    exec (.wpt v) s = .next (setWpCount (s.waypoints.count.toNat + 1)
      (writeWaypoint s.waypoints.count.toNat false v (finishPending s))) := by
  simp only [exec, execWpt, finishPending_waypoints, wpMax]
  rw [if_neg (by omega)]

theorem exec_wpt_of_full (v : Sample) (s : State) (h : 4096 ≤ s.waypoints.count.toNat) :
    exec (.wpt v) s = .next (truncateUpload (finishPending s)) := by
  simp only [exec, execWpt, finishPending_waypoints, wpMax]
  rw [if_pos (by omega)]

theorem exec_wpts_of_fits (v w : Sample) (s : State) (h : s.waypoints.count.toNat + 2 ≤ 4096) :
    exec (.wpts v w) s = .next (setWpCount (s.waypoints.count.toNat + 2)
      (writeWaypoint (s.waypoints.count.toNat + 1) false w
        (writeWaypoint s.waypoints.count.toNat true v (finishPending s)))) := by
  simp only [exec, execWpts, finishPending_waypoints, wpMax]
  rw [if_neg (by omega)]

theorem exec_wpts_of_full (v w : Sample) (s : State) (h : 4096 < s.waypoints.count.toNat + 2) :
    exec (.wpts v w) s = .next (truncateUpload (finishPending s)) := by
  simp only [exec, execWpts, finishPending_waypoints, wpMax]
  rw [if_pos h]

/-- Settles O33: one write at WP_COUNT. -/
theorem wptAppendsOneEntry : Obligations.WptAppendsOneEntry := by
  intro v s
  refine ⟨fun hfit => ⟨_, exec_wpt_of_fits v s hfit, setWpCount_count_toNat _ _ hfit, ?entry, ?others, rfl⟩,
    exec_wpt_of_full v s⟩
  case entry =>
    rw [readCell_setWpCount, readCell_writeWaypoint_same]
    rfl
  case others =>
    intro i hi
    rw [readCell_setWpCount, readCell_writeWaypoint_other _ _ _ _ _ hi, readCell_finishPending_wp]

/-- Settles O34: the stepped entry at WP_COUNT survives the write of the plain one after it. -/
theorem wptsAppendsSteppedPair : Obligations.WptsAppendsSteppedPair := by
  intro v w s
  refine ⟨fun hfit => ⟨_, exec_wpts_of_fits v w s hfit, setWpCount_count_toNat _ _ hfit,
    ?stepped, ?plain, ?others, rfl⟩, exec_wpts_of_full v w s⟩
  case stepped =>
    rw [readCell_setWpCount, readCell_writeWaypoint_other _ _ _ _ _ (by omega), readCell_writeWaypoint_same]
    rfl
  case plain =>
    rw [readCell_setWpCount, readCell_writeWaypoint_same]
    rfl
  case others =>
    intro i hi hi'
    rw [readCell_setWpCount, readCell_writeWaypoint_other _ _ _ _ _ hi', readCell_writeWaypoint_other _ _ _ _ _ hi,
      readCell_finishPending_wp]

/-- Settles O35: only WP_COUNT and UPLOAD_TRUNC are written, so every cell reads as after phase B. -/
theorem wpclrEmptiesWaypoints : Obligations.WpclrEmptiesWaypoints := by
  intro s
  refine ⟨_, rfl, rfl, fun i => ?cells, rfl⟩
  case cells =>
    calc readCell _ .wp i
      _ = readCell (finishPending s) .wp i := readCell_congr _ _ _ _ rfl
      _ = readCell s .wp i := readCell_finishPending_wp s i

end Sys2Proof.Machine
end

section
/-! SETDUTY and SETPW (43_downsampler_and_tier_buffers.md R220, R221): both store DUTY, clamped to 0..1000000 ppm, between
phase B and `Update`, so each comes to the value it stores. -/

namespace Sys2Proof.Machine

/-- A natural number is never below the range 0..h, so its clamp (00_scope.md R12) only cuts it off above. -/
theorem clamp_natCast_zero (n h : Nat) : clamp n 0 h = (min n h : Nat) := by
  rw [clamp, if_neg (by omega)]
  split <;> omega

/-- The pulse width in ppm of the cycle as R221 writes it, over the integers. -/
theorem pulseDuty_natCast (us f : Nat) : (pulseDuty us f : Int) = rdiv ((us * f : Nat) : Int) 1000000 :=
  (rdiv_natCast (us * f) 1000000).symm

/-- Settles O25: the range of DUTY starts at 0, so the clamp of an unsigned operand is a minimum. -/
theorem setdutyStoresClampedDuty : Obligations.SetdutyStoresClampedDuty := by
  intro imm s
  have hmin : clamp (zextImm imm) 0 1000000 = (min imm.toNat 1000000 : Nat) := clamp_natCast_zero imm.toNat 1000000
  refine storesAndUpdates_of_exec _ s .duty (zextImm imm) _ rfl ?_
  rw [← BitVec.ofInt_natCast, ← hmin]
  rfl

/-- Settles O26: the model's natural quotient is `rdiv` of R221, and F_TARGET is the one before SETPW, since phase B writes
no parameter register. -/
theorem setpwStoresPulseShare : Obligations.SetpwStoresPulseShare := by
  intro imm s
  refine storesAndUpdates_of_exec _ s .duty (pulseDuty (zextImm imm) s.params.fTarget.toNat) _ rfl ?_
  rw [pulseDuty_natCast]
  rfl

end Sys2Proof.Machine
end

section
/-! TICK_DITHER and TICK_SLOW (44_phase_accumulator.md R245 to R250, R252): one dither point over the natural numbers,
the crossing test as the carry of the addition, the boundary of the slow path in each of its cases, and the two ticks
assembled from them. -/

namespace Sys2Proof.Machine

/-! ### One dither point (44_phase_accumulator.md R252) -/

theorem exec_tickDither_of_enabled (s : State) (he : s.flags.enSlow = true) (hd : s.flags.ditherOn = true) :
    exec .tickDither s = .next (ditherPoint s) := by
  simp only [exec, execTickDither]
  rw [if_pos ⟨he, hd⟩]

theorem exec_tickDither_of_disabled (s : State) (h : s.flags.enSlow = false ∨ s.flags.ditherOn = false) :
    exec .tickDither s = .next s := by
  have hoff : ¬ (s.flags.enSlow = true ∧ s.flags.ditherOn = true) := by
    obtain h | h := h <;> simp [h]
  simp only [exec, execTickDither]
  rw [if_neg hoff]

/-- A sum below two windows of 1000 points wraps at most once, so its bump is its quotient. -/
theorem ditherBump_eq_div (s : State) (h : Half) (hlt : ditherSum s h < 2000) :
    ditherBump s h = ditherSum s h / 1000 := by
  rw [ditherBump, ditherPoints]
  split <;> omega

/-- What one dither point leaves in DACC of a half. -/
theorem ditherPoint_dacc_get (s : State) (h : Half) (hlt : ditherSum s h < 2000) :
    (ditherPoint s).seq.dacc.get h = ditherSum s h % 1000 := by
  rw [ditherPoint_seq_dacc, PerHalf.get_make, ditherBump_eq_div s h hlt, ditherPoints]
  omega

/-- The step of a half after one dither point: the minimum of R252 fits the register. -/
theorem ditherPoint_increment_get_toNat (s : State) (h : Half) (hlt : ditherSum s h < 2000) :
    ((ditherPoint s).seq.increment.get h).toNat =
      min ((s.seq.incBase.get h).toNat + ditherSum s h / 1000) (2 ^ 32 - 1) := by
  have hget : (ditherPoint s).seq.increment.get h =
      BitVec.ofNat 32 (min ((s.seq.incBase.get h).toNat + ditherBump s h) (2 ^ 32 - 1)) := by
    rw [ditherPoint, PerHalf.get_make]
  rw [hget, ditherBump_eq_div s h hlt, BitVec.toNat_ofNat, Nat.mod_eq_of_lt (by omega)]

/-- Settles O52: with DACC and INC_FRAC below 1000 their sum wraps at most once. -/
theorem tickDitherSpreadsTheFraction : Obligations.TickDitherSpreadsTheFraction := by
  intro s
  refine ⟨exec_tickDither_of_disabled s, fun he hd hacc hfrac =>
    ⟨ditherPoint s, exec_tickDither_of_enabled s he hd, rfl, fun h => ?half⟩⟩
  case half =>
    have hlt : ditherSum s h < 2000 := by
      have := hacc h
      have := hfrac h
      rw [ditherSum]
      omega
    exact ⟨ditherPoint_dacc_get s h hlt, ditherPoint_increment_get_toNat s h hlt⟩

/-! ### The crossing test (44_phase_accumulator.md R246) -/

/-- The accumulator after an addition is below the step just when the addition carried; a step of 0 never crosses. -/
theorem crossed_add_iff (acc inc : BitVec 32) :
    crossed (acc + inc) inc = true ↔ 2 ^ 32 ≤ acc.toNat + inc.toNat := by
  rw [crossed, decide_eq_true_iff, BitVec.toNat_add]
  omega

/-- A sum with a carry wraps to its excess over 2^32. -/
theorem add_of_carry (acc inc : BitVec 32) (hc : 2 ^ 32 ≤ acc.toNat + inc.toNat) :
    acc + inc = BitVec.ofNat 32 (acc.toNat + inc.toNat - 2 ^ 32) := by
  apply BitVec.eq_of_toNat_eq
  rw [BitVec.toNat_add, BitVec.toNat_ofNat]
  omega

/-! ### The synchronised square wave at a boundary (45_sequencer_and_sync_square.md R285) -/

/-- At a boundary that flips HALF the synchronised square wave takes the level of the half then in force. -/
theorem boundary_flip_eq (s : State) :
    boundary .flip s = { s with
      out := { s.out with sqOut := if s.params.sync = 0 then s.out.sqOut else level s.seq.half }
      trace := s.trace ++ (if s.params.sync = 0 then [] else [.sq (level s.seq.half) s.derived.sqDelay]) } := by
  by_cases hs : s.params.sync = 0
  · rw [boundary_of_unsynced _ _ hs, if_pos hs, if_pos hs, List.append_nil]
  · rw [boundary_flip _ hs, if_neg hs, if_neg hs]
    rfl

/-- At a boundary that stays on its half the synchronised square wave gives one pulse and keeps its level. -/
theorem boundary_noflip_eq (s : State) :
    boundary .noflip s = { s with
      trace := s.trace ++ (if s.params.sync = 0 then [] else [.sqPulse s.derived.sqDelay]) } := by
  by_cases hs : s.params.sync = 0
  · rw [boundary_of_unsynced _ _ hs, if_pos hs, List.append_nil]
  · rw [boundary_noflip _ hs, if_neg hs]
    rfl

/-! ### The boundary of the slow path (44_phase_accumulator.md R247 to R249) -/

@[simp] theorem readCell_setWaveBit (v : BitVec 32) (s : State) (sp : Space) (i : Nat) :
    readCell (setWaveBit v s) sp i = readCell s sp i :=
  readCell_congr _ _ _ _ (by cases sp <;> rfl)

/-- The sample every boundary of the slow path outputs: the last cell of the half being left (R247). -/
def lastSample (s : State) : Sample := cellSample (readCell s (.wf s.seq.half) 4095)

/-- The trace after a boundary sample: the second event is that of a synchronised square wave alone. -/
theorem trace_of_boundary (l : List Event) (d e : Event) (p : Prop) [Decidable p] :
    (l ++ [d]) ++ (if p then [] else [e]) = l ++ (if p then [d] else [d, e]) := by
  split <;> simp

/-- The re-based residual as one number, which R249 saturates to the register. -/
theorem rebased_eq_ofNat (old : Half) (s : State) :
    rebased old s = BitVec.ofNat 32 (if s.params.exact = 1 ∧ s.flags.dutyNot50 = true then
      min (s.seq.waveBit.toNat * (s.seq.ratio.get old).toNat / 65536) (2 ^ 32 - 1) else s.seq.waveBit.toNat) := by
  rw [rebased]
  split
  · rfl
  · exact (BitVec.ofNat_toNat 32 s.seq.waveBit).symm

/-- A boundary on the single active half of an extreme duty, reached with the residual `v` in WaveBit (R248). -/
theorem slowBoundary_of_stays (v : BitVec 32) (s : State) (he : s.flags.extreme = true)
    (ha : s.seq.half = activeHalf s) :
    slowBoundary (setWaveBit v s) = { s with
      seq := { s.seq with waveBit := v }
      out := { s.out with dacOut := lastSample s }
      trace := s.trace ++ (if s.params.sync = 0 then [.dac (lastSample s)]
        else [.dac (lastSample s), .sqPulse s.derived.sqDelay]) } := by
  calc slowBoundary (setWaveBit v s)
    _ = boundary .noflip (writeDac (lastSample s) (setWaveBit v s)) := if_pos ⟨he, ha⟩
    _ = _ := by
      rw [boundary_noflip_eq, writeDac_trace, trace_of_boundary]
      rfl

/-- Every other boundary flips HALF, once also at an extreme duty that finds HALF on the inactive half, and re-bases the
residual `v` with which it is reached (R248, R249). -/
theorem slowBoundary_of_flips (v : BitVec 32) (s : State)
    (h : s.flags.extreme = false ∨ s.seq.half ≠ activeHalf s) :
    slowBoundary (setWaveBit v s) = { s with
      seq := { s.seq with
        half := s.seq.half.other
        waveBit := BitVec.ofNat 32 (if s.params.exact = 1 ∧ s.flags.dutyNot50 = true then
          min (v.toNat * (s.seq.ratio.get s.seq.half).toNat / 65536) (2 ^ 32 - 1) else v.toNat) }
      out := { s.out with
        dacOut := lastSample s
        sqOut := if s.params.sync = 0 then s.out.sqOut else level s.seq.half.other }
      trace := s.trace ++ (if s.params.sync = 0 then [.dac (lastSample s)]
        else [.dac (lastSample s), .sq (level s.seq.half.other) s.derived.sqDelay]) } := by
  have hmoves : ¬ (s.flags.extreme = true ∧ s.seq.half = activeHalf s) := by
    obtain h | h := h <;> simp [h]
  calc slowBoundary (setWaveBit v s)
    _ = boundary .flip (setWaveBit (rebased s.seq.half (setWaveBit v s))
          (setHalf s.seq.half.other (writeDac (lastSample s) (setWaveBit v s)))) := if_neg hmoves
    _ = _ := by
      rw [boundary_flip_eq, rebased_eq_ofNat, setWaveBit_trace, setHalf_trace, writeDac_trace, trace_of_boundary]
      rfl

/-! ### TICK_SLOW (44_phase_accumulator.md R245) -/

/-- WaveBit plus the step of the half being output, before it wraps. -/
def slowSum (s : State) : Nat := s.seq.waveBit.toNat + (s.seq.increment.get s.seq.half).toNat

/-- The top 12 bits of a 32-bit accumulator are an index below 4096, so the clamp of R250 cuts nothing off. -/
theorem slowIndex_ofNat (n : Nat) (h : n < 2 ^ 32) : slowIndex (BitVec.ofNat 32 n) = n / 2 ^ 20 := by
  rw [slowIndex, fdiv, BitVec.toNat_ofNat, Nat.mod_eq_of_lt h]
  omega

theorem slowSample_of_no_carry (s : State) (h : slowSum s < 2 ^ 32) :
    slowSample s = writeDac (cellSample (readCell s (.wf s.seq.half) (slowSum s / 2 ^ 20)))
      (setWaveBit (BitVec.ofNat 32 (slowSum s)) s) := by
  have hstays := (crossed_add_iff s.seq.waveBit (s.seq.increment.get s.seq.half)).not.mpr (Nat.not_le.mpr h)
  calc slowSample s
    _ = writeDac (cellSample (readCell (setWaveBit (s.seq.waveBit + s.seq.increment.get s.seq.half) s)
          (.wf s.seq.half) (slowIndex (s.seq.waveBit + s.seq.increment.get s.seq.half))))
          (setWaveBit (s.seq.waveBit + s.seq.increment.get s.seq.half) s) := if_neg hstays
    _ = _ := by rw [readCell_setWaveBit, BitVec.add_def, ← slowSum, slowIndex_ofNat _ h]

theorem slowSample_of_carry (s : State) (h : 2 ^ 32 ≤ slowSum s) :
    slowSample s = slowBoundary (setWaveBit (BitVec.ofNat 32 (slowSum s - 2 ^ 32)) s) := by
  have hcross := (crossed_add_iff s.seq.waveBit (s.seq.increment.get s.seq.half)).mpr h
  calc slowSample s
    _ = slowBoundary (setWaveBit (s.seq.waveBit + s.seq.increment.get s.seq.half) s) := if_pos hcross
    _ = _ := by rw [add_of_carry _ _ h, ← slowSum]

/-- The residual after a carry fits WaveBit. -/
theorem toNat_ofNat_slowSum_sub (s : State) :
    (BitVec.ofNat 32 (slowSum s - 2 ^ 32)).toNat = slowSum s - 2 ^ 32 := by
  have hw := s.seq.waveBit.isLt
  have hi := (s.seq.increment.get s.seq.half).isLt
  have hlt : slowSum s - 2 ^ 32 < 2 ^ 32 := by
    rw [slowSum]
    omega
  rw [BitVec.toNat_ofNat, Nat.mod_eq_of_lt hlt]

theorem exec_tickSlow_of_disabled (s : State) (h : s.flags.enSlow = false) : exec .tickSlow s = .next s := by
  simp only [exec, execTickSlow]
  rw [if_neg (by simp [h])]

theorem exec_tickSlow_of_enabled (s : State) (h : s.flags.enSlow = true) :
    exec .tickSlow s = .next (slowSample s) := by
  simp only [exec, execTickSlow]
  rw [if_pos h]

/-- Settles O50: an enabled tick is one sample, and the carry, the duty and the half select which. -/
theorem tickSlowFollowsItsRule : Obligations.TickSlowFollowsItsRule := by
  intro s
  refine ⟨exec_tickSlow_of_disabled s, fun hen => ?enabled⟩
  case enabled =>
    rw [exec_tickSlow_of_enabled s hen]
    refine ⟨fun hc => ?inside, fun hc he ha => ?stays, fun hc hf => ?flips⟩
    case inside => exact congrArg Host.Outcome.next (slowSample_of_no_carry s hc)
    case stays => exact congrArg Host.Outcome.next ((slowSample_of_carry s hc).trans (slowBoundary_of_stays _ s he ha))
    case flips =>
      have hleaves := slowBoundary_of_flips (BitVec.ofNat 32 (slowSum s - 2 ^ 32)) s hf
      rw [toNat_ofNat_slowSum_sub] at hleaves
      exact congrArg Host.Outcome.next ((slowSample_of_carry s hc).trans hleaves)

end Sys2Proof.Machine
end

section
/-! TICK_FAST and TGLSYNC (45_sequencer_and_sync_square.md R281, R285, R290): the end of a half in its two cases and the
tick assembled from them, then the three ways TGLSYNC hands the pin over and what none of them touches. -/

namespace Sys2Proof.Machine

/-! ### The end of a half on the fast path (45_sequencer_and_sync_square.md R281) -/

/-- The sample a tick of tier `k` outputs. -/
def tierSample (k : Tier) (s : State) : Sample := cellSample (readCell s (.tb k s.seq.half) (fastIndex k s))

/-- The last sample of a half hands over to the other half where that one has samples. -/
theorem endHalf_of_otherHalf (k : Tier) (v : Sample) (s : State) (h : 0 < dutyCount s s.seq.half.other k) :
    endHalf k (writeDac v s) = { s with
      seq := { s.seq with
        half := s.seq.half.other
        seqIdx := 0
        seqLen := BitVec.ofNat 8 (dutyCount s s.seq.half.other k) }
      out := { s.out with
        dacOut := v
        sqOut := if s.params.sync = 0 then s.out.sqOut else level s.seq.half.other }
      trace := s.trace ++ (if s.params.sync = 0 then [.dac v]
        else [.dac v, .sq (level s.seq.half.other) s.derived.sqDelay]) } := by
  have hstarts : 0 < dutyCount (writeDac v s) (writeDac v s).seq.half.other k := h
  have hlength : max (dutyCount s s.seq.half.other k) 1 = dutyCount s s.seq.half.other k := max_eq_left h
  unfold endHalf
  simp only [if_pos hstarts, boundary_flip_eq, setHalf_trace, writeDac_trace, trace_of_boundary]
  rw [← hlength]
  rfl

/-- Where the other half is empty, the same half starts again (45_sequencer_and_sync_square.md R284). -/
theorem endHalf_of_sameHalf (k : Tier) (v : Sample) (s : State) (h : dutyCount s s.seq.half.other k = 0) :
    endHalf k (writeDac v s) = { s with
      seq := { s.seq with seqIdx := 0, seqLen := BitVec.ofNat 8 (max (dutyCount s s.seq.half k) 1) }
      out := { s.out with dacOut := v }
      trace := s.trace ++ (if s.params.sync = 0 then [.dac v] else [.dac v, .sqPulse s.derived.sqDelay]) } := by
  have hstays : ¬ 0 < dutyCount (writeDac v s) (writeDac v s).seq.half.other k := Nat.not_lt.mpr h.le
  unfold endHalf
  simp only [if_neg hstays, boundary_noflip_eq, writeDac_trace, trace_of_boundary]
  rfl

/-! ### TICK_FAST -/

theorem fastSample_of_inside (k : Tier) (s : State) (h : s.seq.seqIdx.toNat + 1 < s.seq.seqLen.toNat) :
    fastSample k s = { writeDac (tierSample k s) s with seq := { s.seq with seqIdx := s.seq.seqIdx + 1 } } :=
  if_neg (Nat.not_le.mpr h)

theorem fastSample_of_last (k : Tier) (s : State) (h : s.seq.seqLen.toNat ≤ s.seq.seqIdx.toNat + 1) :
    fastSample k s = endHalf k (writeDac (tierSample k s) s) :=
  if_pos h

theorem exec_tickFast_of_disabled (s : State) (h : s.flags.enFast = false) : exec .tickFast s = .next s := by
  simp only [exec, execTickFast]
  rw [if_neg (by simp [h])]

theorem exec_tickFast_of_enabled (k : Tier) (s : State) (h : s.flags.enFast = true) (hk : s.seq.fastMode = .fast k) :
    exec .tickFast s = .next (fastSample k s) := by
  simp only [exec, execTickFast, hk]
  rw [if_pos h]

/-- Settles O51: an enabled tick is one sample, and at the last of a half the other half selects how it ends. -/
theorem tickFastFollowsItsRule : Obligations.TickFastFollowsItsRule := by
  intro s
  refine ⟨exec_tickFast_of_disabled s, fun k hen hk => ?enabled⟩
  case enabled =>
    rw [exec_tickFast_of_enabled k s hen hk]
    refine ⟨fun hin => ?inside, fun hlast hother => ?flips, fun hlast hempty => ?stays⟩
    case inside => exact congrArg Host.Outcome.next (fastSample_of_inside k s hin)
    case flips =>
      exact congrArg Host.Outcome.next ((fastSample_of_last k s hlast).trans (endHalf_of_otherHalf k _ s hother))
    case stays =>
      exact congrArg Host.Outcome.next ((fastSample_of_last k s hlast).trans (endHalf_of_sameHalf k _ s hempty))

/-! ### The parts of TGLSYNC (45_sequencer_and_sync_square.md R290) -/

/-- The parameter registers with SYNC flipped. -/
def flipSync (p : Params) : Params := { p with sync := if p.sync = 0 then 1 else 0 }

/-- On a 0/1 register the clamp of the register write keeps `1 - SYNC`. -/
theorem toggleReg_sync (s : State) (hbit : s.params.sync = 0 ∨ s.params.sync = 1) :
    toggleReg .sync s = { s with params := flipSync s.params } := by
  rw [flipSync, ← clamped_one_sub_bit s.params.sync hbit]
  rfl

theorem syncLevel_of_synced (s : State) (h : s.params.sync = 1) : syncLevel s = driveSq (level s.seq.half) 0 s :=
  if_pos h

theorem syncLevel_of_unsynced (s : State) (h : s.params.sync = 0) : syncLevel s = s :=
  if_neg (by simp [h])

/-- With SYNC = 1 the independent square wave only goes off (46_unsynced_square.md R312). -/
theorem deriveSquare_of_synced (s : State) (h : s.params.sync = 1) : deriveSquare s = squareOff s :=
  if_pos (.inl h)

/-- `DeriveSquare` begins with the teardown, so one before it changes nothing. -/
theorem deriveSquare_squareOff (s : State) : deriveSquare (squareOff s) = deriveSquare s := rfl

theorem hostFrame_squareOff (s : State) : HostFrame s (squareOff s) := by
  constructor
  case trace => exact addsOnlySquareLevels_refl s
  all_goals rfl

theorem hostFrame_syncLevel (s : State) : HostFrame s (syncLevel s) := by
  constructor
  case trace => exact addsOnlySquareLevels_syncLevel s
  all_goals simp

/-! ### The three ways TGLSYNC hands the pin over -/

theorem toggleSync_of_stopped (s : State) (hr : s.flags.run = false) :
    toggleSync s = toggleReg .sync (squareOff s) :=
  if_neg (by simp [toggleReg, hr])

theorem toggleSync_of_running (s : State) (hr : s.flags.run = true) :
    toggleSync s = deriveSquare (syncLevel (toggleReg .sync (squareOff s))) :=
  if_pos hr

/-- When SYNC becomes 1, the wave's half gives the level of the pin. -/
theorem toggleSync_to_synced (s : State) (hr : s.flags.run = true) (h : s.params.sync = 0) :
    toggleSync s = squareOff (driveSq (level s.seq.half) 0 { s with params := flipSync s.params }) := by
  have hflip : (flipSync s.params).sync = 1 := if_pos h
  rw [toggleSync_of_running s hr, toggleReg_sync (squareOff s) (.inl h), syncLevel_of_synced _ hflip,
    deriveSquare_of_synced _ hflip]
  rfl

/-- When SYNC becomes 0, the pin goes to the independent square wave. -/
theorem toggleSync_to_independent (s : State) (hr : s.flags.run = true) (h : s.params.sync = 1) :
    toggleSync s = deriveSquare { s with params := flipSync s.params } := by
  have hflip : (flipSync s.params).sync = 0 := if_neg (by simp [h])
  rw [toggleSync_of_running s hr, toggleReg_sync (squareOff s) (.inr h), syncLevel_of_unsynced _ hflip]
  exact deriveSquare_squareOff { s with params := flipSync s.params }

/-! ### What TGLSYNC leaves as it was -/

/-- Everything TGLSYNC can do outside noise mode. -/
theorem toggleSync_cases (s : State) :
    toggleSync s = toggleReg .sync (squareOff s) ∨
    toggleSync s = deriveSquare (syncLevel (toggleReg .sync (squareOff s))) := by
  cases hr : s.flags.run with
  | false => exact .inl (toggleSync_of_stopped s hr)
  | true => exact .inr (toggleSync_of_running s hr)

theorem toggleSync_params (s : State) (hbit : s.params.sync = 0 ∨ s.params.sync = 1) :
    (toggleSync s).params = flipSync s.params := by
  obtain h | h := toggleSync_cases s <;> simp [h, toggleReg_sync (squareOff s) hbit]

@[simp] theorem toggleSync_seq (s : State) : (toggleSync s).seq = s.seq := by
  obtain h | h := toggleSync_cases s <;> simp [h, toggleReg]
@[simp] theorem toggleSync_tables (s : State) : (toggleSync s).tables = s.tables := by
  obtain h | h := toggleSync_cases s <;> simp [h, toggleReg]
@[simp] theorem toggleSync_derived (s : State) : (toggleSync s).derived = s.derived := by
  obtain h | h := toggleSync_cases s <;> simp [h, toggleReg]
@[simp] theorem toggleSync_noise (s : State) : (toggleSync s).noise = s.noise := by
  obtain h | h := toggleSync_cases s <;> simp [h, toggleReg]
@[simp] theorem toggleSync_flags_pend (s : State) : (toggleSync s).flags.pend = s.flags.pend := by
  obtain h | h := toggleSync_cases s <;> simp [h, toggleReg]
@[simp] theorem toggleSync_flags_enSlow (s : State) : (toggleSync s).flags.enSlow = s.flags.enSlow := by
  obtain h | h := toggleSync_cases s <;> simp [h, toggleReg]
@[simp] theorem toggleSync_flags_enFast (s : State) : (toggleSync s).flags.enFast = s.flags.enFast := by
  obtain h | h := toggleSync_cases s <;> simp [h, toggleReg]
@[simp] theorem toggleSync_flags_enNoise (s : State) : (toggleSync s).flags.enNoise = s.flags.enNoise := by
  obtain h | h := toggleSync_cases s <;> simp [h, toggleReg]

theorem hostFrame_toggleSync (s : State) : HostFrame s (toggleSync s) := by
  have htoggle : HostFrame s (toggleReg .sync (squareOff s)) :=
    hostFrame_trans _ _ _ (hostFrame_squareOff s) (hostFrame_writeReg _ _ _)
  obtain h | h := toggleSync_cases s <;> rw [h]
  · exact htoggle
  · exact hostFrame_trans _ _ _ htoggle (hostFrame_trans _ _ _ (hostFrame_syncLevel _) (hostFrame_deriveSquare _))

/-! ### TGLSYNC -/

theorem exec_tglsync_of_noise (s : State) (hn : shapeOf s.params = .noise) :
    exec .tglsync s = .next (setPriorSync (!s.flags.priorSync) (finishPending s)) := by
  simp only [exec, execTglsync, finishPending_params, finishPending_flags_priorSync]
  rw [if_pos hn]

theorem exec_tglsync_of_wave (s : State) (hn : shapeOf s.params ≠ .noise) :
    exec .tglsync s = .next (toggleSync (finishPending s)) := by
  simp only [exec, execTglsync, finishPending_params]
  rw [if_neg hn]

/-- Settles O32: in a wave mode RUN and the old SYNC select how the pin is handed over, and no way touches the analog
path. -/
theorem tglsyncHandsOverThePin : Obligations.TglsyncHandsOverThePin := by
  intro s
  refine ⟨fun h4 => exec_tglsync_of_noise s ((shapeOf_eq_noise_iff _).mpr h4.ge), fun hlt hbit => ?wave⟩
  case wave =>
    have hrun : (finishPending s).flags.run = s.flags.run := finishPending_flags_run s
    have hkept : (finishPending s).params = s.params := finishPending_params s
    have hparams : (toggleSync (finishPending s)).params = flipSync s.params := by
      rw [toggleSync_params _ (hkept ▸ hbit), hkept]
    refine ⟨_, exec_tglsync_of_wave s (shapeOf_ne_noise_of_lt _ hlt), hparams, toggleSync_tables _, toggleSync_seq _,
      (toggleSync_derived _).trans (finishPending_derived s), (toggleSync_noise _).trans (finishPending_noise s),
      (toggleSync_flags_pend _).trans (finishPending_flags_pend s),
      (toggleSync_flags_enSlow _).trans (finishPending_flags_enSlow s),
      (toggleSync_flags_enFast _).trans (finishPending_flags_enFast s),
      (toggleSync_flags_enNoise _).trans (finishPending_flags_enNoise s),
      fun hr => ?stopped, fun hr h0 => ?synced, fun hr h1 => ?independent,
      hostFrame_trans _ _ _ (hostFrame_finishPending s) (hostFrame_toggleSync _)⟩
    case stopped =>
      rw [toggleSync_of_stopped _ (hrun.trans hr)]
      simp [toggleReg]
    case synced =>
      rw [toggleSync_to_synced _ (hrun.trans hr) (hkept ▸ h0)]
      simp
    case independent =>
      rw [hparams, toggleSync_to_independent _ (hrun.trans hr) (hkept ▸ h1), hkept]

end Sys2Proof.Machine
end

section
/-! TICK_USQ (46_unsynced_square.md R316): one sample without and with a carry, the boundary in its two cases, and the
tick assembled from them. -/

namespace Sys2Proof.Machine

/-! ### The boundary of the unsynchronised square wave -/

/-- At an extreme duty a boundary is one pulse: neither the half nor the level of the pin changes. -/
theorem usqBoundary_of_extreme (s : State) (h : s.usq.ext = true) : usqBoundary s = emit (.sqPulse 0) s :=
  if_pos h

/-- At any other duty the other half begins and gives the level of the pin. -/
theorem usqBoundary_of_not_extreme (s : State) (h : s.usq.ext = false) :
    usqBoundary s =
      driveSq (level s.usq.half.other) 0 { s with usq := { s.usq with half := s.usq.half.other } } :=
  if_neg (by simp [h])

/-! ### One sample -/

/-- The state once USQ_ACC has advanced by the step of the half being output. -/
def usqAdvance (s : State) : State := setUsqAcc (s.usq.acc + s.usq.inc.get s.usq.half) s

theorem usqSample_of_no_carry (s : State) (h : s.usq.acc.toNat + (s.usq.inc.get s.usq.half).toNat < 2 ^ 32) :
    usqSample s = usqAdvance s :=
  if_neg ((crossed_add_iff s.usq.acc (s.usq.inc.get s.usq.half)).not.mpr (Nat.not_le.mpr h))

theorem usqSample_of_carry (s : State) (h : 2 ^ 32 ≤ s.usq.acc.toNat + (s.usq.inc.get s.usq.half).toNat) :
    usqSample s = usqBoundary (usqAdvance s) :=
  if_pos ((crossed_add_iff s.usq.acc (s.usq.inc.get s.usq.half)).mpr h)

/-! ### The tick -/

theorem exec_tickUsq_of_disabled (s : State) (h : s.flags.enUsq = false) : exec .tickUsq s = .next s := by
  simp only [exec, execTickUsq]
  rw [if_neg (by simp [h])]

theorem exec_tickUsq_of_enabled (s : State) (h : s.flags.enUsq = true) :
    exec .tickUsq s = .next (usqSample s) := by
  simp only [exec, execTickUsq]
  rw [if_pos h]

/-- Settles O53: an enabled tick is one sample, and the carry and then the duty select how it ends. -/
theorem tickUsqTogglesAtCarry : Obligations.TickUsqTogglesAtCarry := by
  intro s
  refine ⟨exec_tickUsq_of_disabled s, fun hen => ?enabled⟩
  case enabled =>
    rw [exec_tickUsq_of_enabled s hen]
    refine ⟨fun hc => ?advances, fun hc hext => ?flips, fun hc hext => ?pulses⟩
    case advances => exact congrArg Host.Outcome.next (usqSample_of_no_carry s hc)
    case flips =>
      exact congrArg Host.Outcome.next
        ((usqSample_of_carry s hc).trans (usqBoundary_of_not_extreme (usqAdvance s) hext))
    case pulses =>
      exact congrArg Host.Outcome.next
        ((usqSample_of_carry s hc).trans (usqBoundary_of_extreme (usqAdvance s) hext))

end Sys2Proof.Machine
end

section
/-! TICK_NOISE (47_noise.md R331, R332, R335, R336): the sample, the filters and the output level of one tick, and the
tick assembled from them. -/

namespace Sys2Proof.Machine

/-! ### The filters (47_noise.md R331, R332) -/

/-- The sample is the random word cut to its low 16 bits. -/
theorem noiseSample_eq_setWidth (rnd : BitVec 32) : noiseSample rnd = (rnd.setWidth 16).toInt * 65536 := by
  rw [noiseSample, BitVec.setWidth_eq_extractLsb' (by decide)]

/-- A step with numerator 1 adds a fraction of the bare difference. -/
theorem filterStep_one (acc new : Int) (den : Nat) : filterStep acc new 1 den = acc + tdiv (new - acc) den := by
  rw [filterStep, Nat.cast_one, Int.mul_one]

/-- The 2-bit tick counter comes to 0 just from 3, on every 4th tick. -/
theorem nfCnt_add_one_eq_zero_iff (cnt : BitVec 2) : cnt + 1 = 0 ↔ cnt = 3 := by
  bv_omega

theorem filterNoise_nfSlow (new : Int) (n : Noise) :
    (filterNoise new n).nfSlow =
      if n.nfCnt = 3 then n.nfSlow + tdiv ((new - n.nfSlow) * n.lfc.toNat) 100 else n.nfSlow :=
  if_congr (nfCnt_add_one_eq_zero_iff n.nfCnt) rfl rfl

/-! ### The output (47_noise.md R335) -/

/-- DAC_OUT holds the whole clamped level: it fits in 12 bits. -/
theorem noiseLevel_ofInt_toNat (amp : Nat) (n : Noise) :
    ((BitVec.ofInt 12 (noiseLevel amp n)).toNat : Int) = noiseLevel amp n := by
  have hrange : 0 ≤ noiseLevel amp n ∧ noiseLevel amp n ≤ 4095 := clamp_mem _ 0 ampMax (by decide)
  rw [BitVec.toNat_ofInt]
  omega

/-! ### The tick (47_noise.md R336) -/

theorem noiseTick_noise (rnd : BitVec 32) (s : State) :
    (noiseTick rnd s).noise = filterNoise ((rnd.setWidth 16).toInt * 65536) s.noise := by
  rw [noiseTick, writeDac_noise, noiseSample_eq_setWidth]

/-- The level a tick outputs is that of the filters it leaves. -/
theorem noiseTick_dacOut_toNat (rnd : BitVec 32) (s : State) :
    ((noiseTick rnd s).out.dacOut.toNat : Int) = noiseLevel s.params.nAmp.toNat (noiseTick rnd s).noise :=
  noiseLevel_ofInt_toNat _ _

theorem exec_tickNoise_of_disabled (rnd : BitVec 32) (s : State) (h : s.flags.enNoise = false) :
    exec (.tickNoise rnd) s = .next s := by
  simp only [exec, execTickNoise]
  rw [if_neg (by simp [h])]

theorem exec_tickNoise_of_enabled (rnd : BitVec 32) (s : State) (h : s.flags.enNoise = true) :
    exec (.tickNoise rnd) s = .next (noiseTick rnd s) := by
  simp only [exec, execTickNoise]
  rw [if_pos h]

/-- Settles O54: an enabled tick is one sample; the slow filter steps where the counter wraps, and the clamp makes the
mix fit the register. -/
theorem tickNoiseFiltersAndOutputs : Obligations.TickNoiseFiltersAndOutputs := by
  intro rnd s
  refine ⟨exec_tickNoise_of_disabled rnd s, fun hen =>
    ⟨noiseTick rnd s, exec_tickNoise_of_enabled rnd s hen, rfl, ?fast, ?avg, ?count, ?slow, ?output⟩⟩
  case fast =>
    rw [noiseTick_noise]
    exact filterStep_one _ _ 5
  case avg => rw [noiseTick_noise]; rfl
  case count => rw [noiseTick_noise]; rfl
  case slow =>
    rw [noiseTick_noise]
    exact filterNoise_nfSlow _ s.noise
  case output => exact noiseTick_dacOut_toNat rnd s

end Sys2Proof.Machine
end

section
/-! NOP, QSTAT, GETP and PUTP (48_system.md R360, R361, R363, R364): the number (A, B) of each register and the register
tables as a list over the registers, then what each instruction answers or stores. -/

namespace Sys2Proof.Machine

/-! ### The number of a register (10_state.md R21) -/

theorem regAt_regBank_regIdx (r : Reg) : regAt (regBank r) (regIdx r) = some r := by cases r <;> rfl

theorem regBank_regIdx_of_regAt (a b : Nibble) : ∀ r ∈ regAt a b, regBank r = a ∧ regIdx r = b := by
  revert a b
  decide +kernel

/-- (A, B) names a register exactly when it is that register's bank and index. -/
theorem regAt_eq_some_iff (a b : Nibble) (r : Reg) : regAt a b = some r ↔ regBank r = a ∧ regIdx r = b := by
  constructor
  · exact regBank_regIdx_of_regAt a b r
  · rintro ⟨rfl, rfl⟩
    exact regAt_regBank_regIdx r

/-! ### The register tables (10_state.md R22 to R28) -/

/-- The row of register `r` as the machine's own functions give it. -/
def registerRow (c : Cfg) (r : Reg) : RegisterRow :=
  ⟨regBank r, regIdx r, r, fun p => getReg p r, regLo c r, regHi c r⟩

/-- The tables written out row by row are the rows of the machine's registers. -/
theorem registerTable_eq_map (c : Cfg) : registerTable c = allRegs.map (registerRow c) := rfl

theorem mem_allRegs (r : Reg) : r ∈ allRegs := by cases r <;> decide

theorem mem_registerTable_iff (c : Cfg) (row : RegisterRow) :
    row ∈ registerTable c ↔ ∃ r : Reg, registerRow c r = row := by
  simp [registerTable_eq_map, mem_allRegs]

/-- A register is signed exactly when its range goes below 0 (10_state.md R21). -/
theorem regSigned_iff_regLo_neg (c : Cfg) (r : Reg) : regSigned r = true ↔ regLo c r < 0 := by
  cases r <;> simp [regSigned, regLo]

theorem regValue_eq_of_regLo (c : Cfg) (p : Params) (r : Reg) :
    regValue p r = if regLo c r < 0 then (getReg p r).toInt else (getReg p r).toNat :=
  if_congr (regSigned_iff_regLo_neg c r) rfl rfl

/-- An (A, B) that no row of the tables has names no register. -/
theorem regAt_eq_none_of_no_row (c : Cfg) (a b : Nibble)
    (h : ∀ row ∈ registerTable c, (row.a, row.b) ≠ (a, b)) : regAt a b = none := by
  rw [Option.eq_none_iff_forall_ne_some]
  intro r hr
  obtain ⟨ha, hb⟩ := (regAt_eq_some_iff a b r).mp hr
  exact h (registerRow c r) ((mem_registerTable_iff c _).mpr ⟨r, rfl⟩) (Prod.ext ha hb)

/-! ### PUTP (48_system.md R364) -/

theorem exec_putp_of_some (a b : Nibble) (imm : Imm) (s : State) (r : Reg) (h : regAt a b = some r) :
    exec (.putp a b imm) s = .next (writeReg r imm.toInt (finishPending s)) := by
  simp only [exec, execPutp, h]
  rfl

/-- A register write after phase B is one to the registers as they were before it: phase B touches neither them nor the
configuration that gives their ranges. -/
theorem writeReg_finishPending_eq (r : Reg) (v : Int) (s : State) :
    writeReg r v (finishPending s) = { finishPending s with
      params := setReg s.params r (BitVec.ofInt 48 (clamp v (regLo s.cfg r) (regHi s.cfg r))) } := by
  simp only [writeReg, finishPending_params, finishPending_cfg]

/-- Settles O29: a row of the tables is the row of a machine register, so the row stored is that register's and any
other row is another's. -/
theorem putpStoresAndDerivesNothing : Obligations.PutpStoresAndDerivesNothing := by
  intro a b imm s
  refine ⟨fun row hrow ha hb => ?stored, fun hno => ?refused, fun r => ?numbers, fun row hrow => ?ranges⟩
  case stored =>
    obtain ⟨r, rfl⟩ := (mem_registerTable_iff s.cfg row).mp hrow
    have hr : regAt a b = some r := (regAt_eq_some_iff a b r).mpr ⟨ha, hb⟩
    refine ⟨_, (exec_putp_of_some a b imm s r hr).trans (congrArg _ (writeReg_finishPending_eq r imm.toInt s)),
      getReg_setReg_same _ r _, fun other hother hne => ?_⟩
    obtain ⟨q, rfl⟩ := (mem_registerTable_iff s.cfg other).mp hother
    have hq : q ≠ r := by
      rintro rfl
      exact hne (Prod.ext ha hb)
    exact getReg_setReg_other _ r q _ hq
  case refused => exact exec_putp_of_none a b imm s (regAt_eq_none_of_no_row s.cfg a b hno)
  case numbers => simp [mem_registerTable_iff, regAt_eq_some_iff, registerRow]
  case ranges =>
    obtain ⟨r, rfl⟩ := (mem_registerTable_iff s.cfg row).mp hrow
    exact ⟨rfl, rfl, fun _ => rfl, fun p => regValue_eq_of_regLo s.cfg p r⟩

/-! ### GETP (48_system.md R363) -/

theorem exec_getp (a b : Nibble) (s : State) :
    exec (.getp a b) s = .next { s with trace := s.trace ++ [.resp (0x0E#8 ++ a ++ b ++ getpValue s a b)] } := rfl

theorem getpValue_of_some (s : State) (a b : Nibble) (r : Reg) (h : regAt a b = some r) :
    getpValue s a b = getReg s.params r := by
  simp [getpValue, h]

/-- Bank 7 holds no parameter register, so GETP answers its status value. -/
theorem getpValue_bank_seven (s : State) (b : Nibble) : getpValue s 7 b = statusValue s b := by
  have hnone : regAt 7 b = none := regAt_eq_none_of_six_lt 7 b (by decide)
  rw [getpValue, hnone]
  rfl

/-- Settles O38: the three cases of the value GETP answers. -/
theorem getpRespondsWithRegister : Obligations.GetpRespondsWithRegister := by
  intro a b s
  refine ⟨getpValue s a b, exec_getp a b s, getpValue_of_some s a b, ?status, getpValue_of_none s a b⟩
  case status =>
    rintro rfl
    exact getpValue_bank_seven s b

/-! ### NOP and QSTAT (48_system.md R360, R361) -/

/-- Settles O36: NOP's meaning is the state it is given. -/
theorem nopChangesNothing : Obligations.NopChangesNothing :=
  ⟨by decide, fun _ => rfl⟩

theorem exec_qstat_of_some (a : Nibble) (s : State) (v : Imm) (h : qstatValue s a = some v) :
    exec (.qstat a) s = .next { s with trace := s.trace ++ [.resp (0x0D#8 ++ a ++ 0#4 ++ v)] } := by
  simp only [exec, execQstat, h]
  rfl

/-- QSTAT has an answer for the selectors 0..2 only (30_encoding.md R103). -/
theorem exec_qstat_of_two_lt (a : Nibble) (s : State) (h : 2 < a.toNat) : exec (.qstat a) s = .next (refuse s) :=
  exec_of_not_wellFormed _ s ((wellFormed_eq_false_iff _).mpr (.inl ⟨a, rfl, h⟩))

/-- Settles O37: the answer of each selector, and the refusal of any other. -/
theorem qstatRespondsWithStatus : Obligations.QstatRespondsWithStatus := fun s =>
  ⟨exec_qstat_of_some 0 s _ rfl, exec_qstat_of_some 1 s _ rfl, exec_qstat_of_some 2 s _ rfl,
    fun a h => exec_qstat_of_two_lt a s h⟩

end Sys2Proof.Machine
end

section
/-! Disabled ticks (60_exceptions.md R404), assembled from what each of the five ticks does while its enable is 0. -/

namespace Sys2Proof.Machine

/-- Settles O49: each of the five ticks tests its own enable, and TICK_DITHER both of the ones it depends on. -/
theorem disabledTicksAreIgnored : Obligations.DisabledTicksAreIgnored := by
  intro s
  refine ⟨?slow, ?fast, ?noise, ?usq, ?dither⟩
  case slow => exact exec_tickSlow_of_disabled s
  case fast => exact exec_tickFast_of_disabled s
  case noise => exact fun hoff rnd => exec_tickNoise_of_disabled rnd s hoff
  case usq => exact exec_tickUsq_of_disabled s
  case dither => exact exec_tickDither_of_disabled s

end Sys2Proof.Machine
end

section
/-! The encoding (30_encoding.md R91 to R102, R110): when each form accepts a word and as what, so that a word decodes to an
instruction exactly when it is that instruction's word; the rows of the opcode table by their fields; the bytes of a word. -/

namespace Sys2Proof

/-! ### The parts of IMM that the forms read (30_encoding.md R93) -/

/-- A bit vector is its high part above its low part. -/
theorem eq_append_iff {m n : Nat} (z : BitVec (m + n)) (x : BitVec m) (y : BitVec n) :
    z = x ++ y ↔ z.extractLsb' n m = x ∧ z.extractLsb' 0 n = y := by
  constructor
  · rintro rfl
    exact ⟨BitVec.extractLsb'_append_eq_left, BitVec.extractLsb'_append_eq_right⟩
  · rintro ⟨rfl, rfl⟩
    exact BitVec.extractLsb'_append_extractLsb'.symm

/-- A part of a part is a part. -/
theorem extractLsb'_extractLsb'_of_add_le {n : Nat} (x : BitVec n) (start len start' len' : Nat)
    (h : start' + len' ≤ len) :
    (x.extractLsb' start len).extractLsb' start' len' = x.extractLsb' (start + start') len' := by
  ext k hk
  simp [show start' + k < len by omega, Nat.add_assoc]

/-- IMM of WPT is its value under zeros. -/
theorem imm_eq_wpt_iff (imm : Imm) (v : Sample) :
    imm = (0#36) ++ v ↔ imm.extractLsb' 12 36 = 0 ∧ imm.extractLsb' 0 12 = v :=
  eq_append_iff (m := 36) imm 0 v

/-- IMM of WPTS is its two values, each under zeros. -/
theorem imm_eq_wpts_iff (imm : Imm) (before after : Sample) :
    imm = (0#20) ++ after ++ (0#4) ++ before ↔
      imm.extractLsb' 12 4 = 0 ∧ imm.extractLsb' 28 20 = 0 ∧
        imm.extractLsb' 0 12 = before ∧ imm.extractLsb' 16 12 = after := by
  have hbefore := eq_append_iff (m := 36) imm ((0#20) ++ after ++ (0#4)) before
  have hzero := eq_append_iff (m := 32) (imm.extractLsb' 12 36) ((0#20) ++ after) (0#4)
  have hafter := eq_append_iff (m := 20) ((imm.extractLsb' 12 36).extractLsb' 4 32) (0#20) after
  rw [hbefore, hzero, hafter]
  simp (disch := decide) only [extractLsb'_extractLsb'_of_add_le]
  tauto

/-- IMM of TICK_NOISE is the random word under zeros. -/
theorem imm_eq_noise_iff (imm : Imm) (rnd : BitVec 32) :
    imm = (0#16) ++ rnd ↔ imm.extractLsb' 32 16 = 0 ∧ imm.extractLsb' 0 32 = rnd :=
  eq_append_iff (m := 16) imm 0 rnd

/-! ### When a form accepts a word (R92) -/

/-- A form accepts a word exactly when its must-be-zero fields are zero. -/
theorem accepts_iff (p : Prop) [Decidable p] (i j : Instr) (e : DecodeError) :
    (if p then Except.ok i else Except.error e) = Except.ok j ↔ p ∧ i = j := by
  split <;> simp [*]

theorem formW0_eq_ok_iff (name : String) (w : Word) (i j : Instr) :
    formW0 name w i = .ok j ↔ (Word.a w = 0 ∧ Word.b w = 0 ∧ Word.imm w = 0) ∧ i = j := accepts_iff _ _ _ _

theorem formWA_eq_ok_iff (name : String) (w : Word) (f : Nibble → Instr) (j : Instr) :
    formWA name w f = .ok j ↔ (Word.b w = 0 ∧ Word.imm w = 0) ∧ f (Word.a w) = j := accepts_iff _ _ _ _

theorem formWAB_eq_ok_iff (name : String) (w : Word) (f : Nibble → Nibble → Instr) (j : Instr) :
    formWAB name w f = .ok j ↔ Word.imm w = 0 ∧ f (Word.a w) (Word.b w) = j := accepts_iff _ _ _ _

theorem formWI_eq_ok_iff (name : String) (w : Word) (f : Imm → Instr) (j : Instr) :
    formWI name w f = .ok j ↔ (Word.a w = 0 ∧ Word.b w = 0) ∧ f (Word.imm w) = j := accepts_iff _ _ _ _

theorem formWpt_eq_ok_iff (w : Word) (j : Instr) :
    formWpt w = .ok j ↔ Word.a w = 0 ∧ Word.b w = 0 ∧ ∃ v : Sample, Word.imm w = (0#36) ++ v ∧ .wpt v = j := by
  rw [formWpt, accepts_iff]
  simp only [imm_eq_wpt_iff, and_assoc, exists_and_left, exists_eq_left']

theorem formWpts_eq_ok_iff (w : Word) (j : Instr) :
    formWpts w = .ok j ↔ Word.a w = 0 ∧ Word.b w = 0 ∧
      ∃ u v : Sample, Word.imm w = (0#20) ++ v ++ (0#4) ++ u ∧ .wpts u v = j := by
  rw [formWpts, accepts_iff]
  simp only [imm_eq_wpts_iff, and_assoc, exists_and_left, exists_eq_left']

theorem formNoise_eq_ok_iff (w : Word) (j : Instr) :
    formNoise w = .ok j ↔ Word.a w = 0 ∧ Word.b w = 0 ∧
      ∃ rnd : BitVec 32, Word.imm w = (0#16) ++ rnd ∧ .tickNoise rnd = j := by
  rw [formNoise, accepts_iff]
  simp only [imm_eq_noise_iff, and_assoc, exists_and_left, exists_eq_left']

/-! ### Decoding and encoding (R95, R110) -/

/-- A word is made of fields exactly when its four fields are those. -/
theorem eq_make_iff (w : Word) (o : BitVec 8) (a b : Nibble) (imm : Imm) :
    w = Word.make o a b imm ↔ Word.op w = o ∧ Word.a w = a ∧ Word.b w = b ∧ Word.imm w = imm := by
  constructor
  · rintro rfl
    simp
  · rintro ⟨rfl, rfl, rfl, rfl⟩
    exact (Word.make_fields w).symm

/-- Settles O1: each form accepts the word made for it. -/
theorem decodeOfEncodeIsIdentity : Obligations.DecodeOfEncodeIsIdentity := by
  intro i
  cases i
  all_goals simp [encode, decode, formW0_eq_ok_iff, formWA_eq_ok_iff, formWAB_eq_ok_iff, formWI_eq_ok_iff,
    formWpt_eq_ok_iff, formWpts_eq_ok_iff, formNoise_eq_ok_iff]

/-- A word whose opcode and other fields are those of an instruction's word is that word. -/
theorem encode_eq_of_fields (i : Instr) (w : Word) (o : BitVec 8) (a b : Nibble) (imm : Imm)
    (hi : encode i = Word.make o a b imm) (ho : (Word.op w).toNat = o.toNat) (ha : Word.a w = a) (hb : Word.b w = b)
    (himm : Word.imm w = imm) : encode i = w :=
  hi.trans ((eq_make_iff w o a b imm).mpr ⟨BitVec.eq_of_toNat_eq ho, ha, hb, himm⟩).symm

/-- Settles O2: the opcode selects the form, and what the form accepts fixes the other three fields. -/
theorem encodeOfDecodeIsIdentity : Obligations.EncodeOfDecodeIsIdentity := by
  intro w i h
  unfold decode at h
  split at h
  case h_1 ho | h_8 ho | h_9 ho | h_12 ho | h_13 ho | h_17 ho | h_18 ho | h_19 ho | h_20 ho | h_22 ho | h_23 ho =>
    obtain ⟨⟨ha, hb, himm⟩, rfl⟩ := (formW0_eq_ok_iff _ w _ i).mp h
    exact encode_eq_of_fields _ w _ _ _ _ rfl ho ha hb himm
  case h_2 ho | h_3 ho | h_4 ho | h_5 ho =>
    obtain ⟨⟨ha, hb⟩, rfl⟩ := (formWI_eq_ok_iff _ w _ i).mp h
    exact encode_eq_of_fields _ w _ _ _ _ rfl ho ha hb rfl
  case h_6 ho | h_14 ho =>
    obtain ⟨⟨hb, himm⟩, rfl⟩ := (formWA_eq_ok_iff _ w _ i).mp h
    exact encode_eq_of_fields _ w _ _ _ _ rfl ho rfl hb himm
  case h_15 ho =>
    obtain ⟨himm, rfl⟩ := (formWAB_eq_ok_iff _ w _ i).mp h
    exact encode_eq_of_fields _ w _ _ _ _ rfl ho rfl rfl himm
  case h_7 ho | h_16 ho =>
    obtain rfl := Except.ok.inj h
    exact encode_eq_of_fields _ w _ _ _ _ rfl ho rfl rfl rfl
  case h_10 ho =>
    obtain ⟨ha, hb, v, himm, rfl⟩ := (formWpt_eq_ok_iff w i).mp h
    exact encode_eq_of_fields _ w _ _ _ _ rfl ho ha hb himm
  case h_11 ho =>
    obtain ⟨ha, hb, u, v, himm, rfl⟩ := (formWpts_eq_ok_iff w i).mp h
    exact encode_eq_of_fields _ w _ _ _ _ rfl ho ha hb himm
  case h_21 ho =>
    obtain ⟨ha, hb, rnd, himm, rfl⟩ := (formNoise_eq_ok_iff w i).mp h
    exact encode_eq_of_fields _ w _ _ _ _ rfl ho ha hb himm
  case h_24 => split at h <;> cases h

/-! ### The rows of the opcode table (R92, R96) -/

/-- A row by its fields: the opcode it asks for, and the bits of A, B and IMM that must be zero. -/
structure FieldRow where
  mnemonic : String
  op       : BitVec 8
  zeroA    : Nibble
  zeroB    : Nibble
  zeroImm  : Imm

/-- The match and mask of a row. -/
def FieldRow.toRow (f : FieldRow) : OpcodeRow :=
  ⟨f.mnemonic, Word.make f.op 0 0 0, Word.make 0xFF f.zeroA f.zeroB f.zeroImm⟩

/-- The 23 rows of R96 by their fields. -/
def fieldRows : List FieldRow := [
  ⟨"NOP", 0x00, 0xF, 0xF, 0xFFFFFFFFFFFF⟩,
  ⟨"SETFREQ", 0x01, 0xF, 0xF, 0⟩,
  ⟨"SETPER", 0x02, 0xF, 0xF, 0⟩,
  ⟨"SETDUTY", 0x03, 0xF, 0xF, 0⟩,
  ⟨"SETPW", 0x04, 0xF, 0xF, 0⟩,
  ⟨"SETSHAPE", 0x05, 0, 0xF, 0xFFFFFFFFFFFF⟩,
  ⟨"SETPARAM", 0x06, 0, 0, 0⟩,
  ⟨"TGLEXACT", 0x07, 0xF, 0xF, 0xFFFFFFFFFFFF⟩,
  ⟨"TGLSYNC", 0x08, 0xF, 0xF, 0xFFFFFFFFFFFF⟩,
  ⟨"WPT", 0x09, 0xF, 0xF, 0xFFFFFFFFF000⟩,
  ⟨"WPTS", 0x0A, 0xF, 0xF, 0xFFFFF000F000⟩,
  ⟨"COMMIT", 0x0B, 0xF, 0xF, 0xFFFFFFFFFFFF⟩,
  ⟨"WPCLR", 0x0C, 0xF, 0xF, 0xFFFFFFFFFFFF⟩,
  ⟨"QSTAT", 0x0D, 0, 0xF, 0xFFFFFFFFFFFF⟩,
  ⟨"GETP", 0x0E, 0, 0, 0xFFFFFFFFFFFF⟩,
  ⟨"PUTP", 0x0F, 0, 0, 0⟩,
  ⟨"APPLY", 0x10, 0xF, 0xF, 0xFFFFFFFFFFFF⟩,
  ⟨"FGSTEP", 0x11, 0xF, 0xF, 0xFFFFFFFFFFFF⟩,
  ⟨"TICK_SLOW", 0x40, 0xF, 0xF, 0xFFFFFFFFFFFF⟩,
  ⟨"TICK_FAST", 0x41, 0xF, 0xF, 0xFFFFFFFFFFFF⟩,
  ⟨"TICK_NOISE", 0x42, 0xF, 0xF, 0xFFFF00000000⟩,
  ⟨"TICK_USQ", 0x43, 0xF, 0xF, 0xFFFFFFFFFFFF⟩,
  ⟨"TICK_DITHER", 0x44, 0xF, 0xF, 0xFFFFFFFFFFFF⟩]

theorem opcodeRows_eq_map : opcodeRows = fieldRows.map FieldRow.toRow := by decide +kernel

/-- Masking a word masks its fields. -/
theorem make_and_make (o o' : BitVec 8) (a a' b b' : Nibble) (i i' : Imm) :
    Word.make o a b i &&& Word.make o' a' b' i' = Word.make (o &&& o') (a &&& a') (b &&& b') (i &&& i') := by
  unfold Word.make
  rw [← BitVec.and_append, ← BitVec.and_append, ← BitVec.and_append]

/-- A word selects a row exactly when it has the row's opcode and zeros where the row asks for them. -/
theorem selects_toRow_iff (f : FieldRow) (w : Word) :
    w &&& f.toRow.mask = f.toRow.value ↔
      Word.op w = f.op ∧ Word.a w &&& f.zeroA = 0 ∧ Word.b w &&& f.zeroB = 0 ∧ Word.imm w &&& f.zeroImm = 0 := by
  have hmask : w &&& f.toRow.mask = Word.make (Word.op w &&& 0xFF) (Word.a w &&& f.zeroA) (Word.b w &&& f.zeroB)
      (Word.imm w &&& f.zeroImm) := by
    conv_lhs => rw [← Word.make_fields w]
    exact make_and_make _ _ _ _ _ _ _ _
  have hop : Word.op w &&& 0xFF = Word.op w := BitVec.and_allOnes
  rw [hmask, hop]
  exact (eq_make_iff _ f.op 0 0 0).trans (by simp)

/-- No two rows have the same opcode. -/
theorem toRow_eq_of_op_eq : ∀ f ∈ fieldRows, ∀ g ∈ fieldRows, f.op = g.op → f.toRow = g.toRow := by decide +kernel

/-- A part of a number is masked by the part of the mask. -/
theorem extractLsb'_and_eq_zero_iff {n m k : Nat} (z mask : BitVec n) (ones : mask.extractLsb' k m = BitVec.allOnes m) :
    (z &&& mask).extractLsb' k m = 0 ↔ z.extractLsb' k m = 0 := by
  rw [BitVec.extractLsb'_and, ones, BitVec.and_allOnes]

theorem extractLsb'_and_of_zeros {n m k : Nat} (z mask : BitVec n) (zeros : mask.extractLsb' k m = 0) :
    (z &&& mask).extractLsb' k m = 0 := by
  rw [BitVec.extractLsb'_and, zeros]
  simp

/-- WPT asks for zeros in IMM[47:12]. -/
theorem and_wptMask_eq_zero_iff (imm : Imm) : imm &&& 0xFFFFFFFFF000 = 0 ↔ imm.extractLsb' 12 36 = 0 := by
  have hsplit : imm &&& 0xFFFFFFFFF000 = (0#36) ++ (0#12) ↔ _ := imm_eq_wpt_iff _ _
  rw [extractLsb'_and_eq_zero_iff imm _ (by decide)] at hsplit
  exact hsplit.trans (and_iff_left (extractLsb'_and_of_zeros imm _ (by decide)))

/-- WPTS asks for zeros in IMM[15:12] and IMM[47:28]. -/
theorem and_wptsMask_eq_zero_iff (imm : Imm) :
    imm &&& 0xFFFFF000F000 = 0 ↔ imm.extractLsb' 12 4 = 0 ∧ imm.extractLsb' 28 20 = 0 := by
  have hsplit : imm &&& 0xFFFFF000F000 = (0#20) ++ (0#12) ++ (0#4) ++ (0#12) ↔ _ := imm_eq_wpts_iff _ _ _
  rw [extractLsb'_and_eq_zero_iff imm _ (by decide), extractLsb'_and_eq_zero_iff imm _ (by decide)] at hsplit
  have hbefore := extractLsb'_and_of_zeros (k := 0) (m := 12) imm 0xFFFFF000F000 (by decide)
  have hafter := extractLsb'_and_of_zeros (k := 16) (m := 12) imm 0xFFFFF000F000 (by decide)
  exact hsplit.trans (and_congr_right' (and_iff_left ⟨hbefore, hafter⟩))

/-- TICK_NOISE asks for zeros in IMM[47:32]. -/
theorem and_noiseMask_eq_zero_iff (imm : Imm) : imm &&& 0xFFFF00000000 = 0 ↔ imm.extractLsb' 32 16 = 0 := by
  have hsplit : imm &&& 0xFFFF00000000 = (0#16) ++ (0#32) ↔ _ := imm_eq_noise_iff _ _
  rw [extractLsb'_and_eq_zero_iff imm _ (by decide)] at hsplit
  exact hsplit.trans (and_iff_left (extractLsb'_and_of_zeros imm _ (by decide)))

theorem nibble_and_ones (x : Nibble) : x &&& 0xF#4 = x := BitVec.and_allOnes

theorem imm_and_ones (x : Imm) : x &&& 0xFFFFFFFFFFFF#48 = x := BitVec.and_allOnes

/-- Every instruction's word selects a row. -/
theorem encode_selects (i : Instr) : ∃ f ∈ fieldRows, Word.op (encode i) = f.op ∧ Word.a (encode i) &&& f.zeroA = 0 ∧
    Word.b (encode i) &&& f.zeroB = 0 ∧ Word.imm (encode i) &&& f.zeroImm = 0 := by
  cases i
  case wpt v =>
    have hz := (and_wptMask_eq_zero_iff _).mpr ((imm_eq_wpt_iff _ v).mp rfl).1
    simpa [fieldRows, encode] using hz
  case wpts u v =>
    obtain ⟨h1, h2, -⟩ := (imm_eq_wpts_iff _ u v).mp rfl
    simpa [fieldRows, encode] using (and_wptsMask_eq_zero_iff _).mpr ⟨h1, h2⟩
  case tickNoise rnd =>
    have hz := (and_noiseMask_eq_zero_iff _).mpr ((imm_eq_noise_iff _ rnd).mp rfl).1
    simpa [fieldRows, encode] using hz
  all_goals simp [fieldRows, encode]

/-- The decoder accepts the words with the opcode and the zeros of one of the rows: such a word meets the condition of the
form its opcode selects. -/
theorem exists_decode_iff (w : Word) :
    (∃ i, decode w = .ok i) ↔ ∃ f ∈ fieldRows, Word.op w = f.op ∧ Word.a w &&& f.zeroA = 0 ∧
      Word.b w &&& f.zeroB = 0 ∧ Word.imm w &&& f.zeroImm = 0 := by
  constructor
  · rintro ⟨i, hi⟩
    rw [← encodeOfDecodeIsIdentity w i hi]
    exact encode_selects i
  · rintro ⟨f, hf, hop, ha, hb, himm⟩
    have hwpt := and_wptMask_eq_zero_iff (Word.imm w)
    have hwpts := and_wptsMask_eq_zero_iff (Word.imm w)
    have hnoise := and_noiseMask_eq_zero_iff (Word.imm w)
    simp only [BitVec.ofNat_eq_ofNat] at hwpt hwpts hnoise
    simp only [fieldRows, List.mem_cons, List.not_mem_nil, or_false] at hf
    rcases hf with rfl | rfl | rfl | rfl | rfl | rfl | rfl | rfl | rfl | rfl | rfl | rfl | rfl | rfl | rfl | rfl | rfl |
      rfl | rfl | rfl | rfl | rfl | rfl
    all_goals
      simp only [BitVec.ofNat_eq_ofNat, nibble_and_ones, imm_and_ones, hwpt, hwpts, hnoise] at ha hb himm
      simp [decode, hop, ha, hb, himm, formW0, formWA, formWAB, formWI, formWpt, formWpts, formNoise]

/-- Settles O3: the rows are those by fields, and two rows with the same opcode are one. -/
theorem decodeAcceptsExactlyTableRows : Obligations.DecodeAcceptsExactlyTableRows := by
  intro w
  refine ⟨?accepted, ?unique⟩
  case accepted =>
    rw [exists_decode_iff, opcodeRows_eq_map]
    simp only [List.mem_map, exists_exists_and_eq_and, selects_toRow_iff]
  case unique =>
    rw [opcodeRows_eq_map]
    simp only [List.forall_mem_map, selects_toRow_iff]
    rintro f hf g hg ⟨hfop, -⟩ ⟨hgop, -⟩
    exact toRow_eq_of_op_eq f hf g hg (hfop.symm.trans hgop)

/-! ### The bytes of a word (20_memory.md R68) and the words of the spec (R110) -/

/-- Reading back a serialised word puts its eight bytes together again. -/
theorem ofBytes_toBytes_append (w : Word) (rest : List (BitVec 8)) :
    Word.ofBytes (Word.toBytes w ++ rest) = some (w, rest) := by
  have hjoin : w.extractLsb' 56 8 ++ w.extractLsb' 48 8 ++ w.extractLsb' 40 8 ++ w.extractLsb' 32 8 ++
      w.extractLsb' 24 8 ++ w.extractLsb' 16 8 ++ w.extractLsb' 8 8 ++ w.extractLsb' 0 8 = w := by
    ext k hk
    simp
    grind
  exact congrArg (fun v => some (v, rest)) hjoin

/-- Settles O4: -/
theorem serialisedWordIsBigEndian : Obligations.SerialisedWordIsBigEndian := by
  intro w rest
  refine ⟨ofBytes_toBytes_append w rest, rfl, rfl, fun k hk => ?_⟩
  interval_cases k <;> rfl

/-- Settles O5: the six words are evaluated. -/
theorem specWordsDecode : Obligations.SpecWordsDecode := by
  unfold Obligations.SpecWordsDecode
  decide +kernel

end Sys2Proof

namespace Sys2Proof.Machine

/-! ### The step (30_encoding.md R90, 60_exceptions.md R400, R406) -/

/-- Settles O6. -/
theorem stepExecutesNextWord : Obligations.StepExecutesNextWord := fun s w rest i hs hw =>
  step_of_instrOf_some s w rest i hs ((instrOf_eq_some_iff w i).mpr hw)

end Sys2Proof.Machine
end

section
/-! What the two contexts leave as it was (60_exceptions.md R400, R401, R406, R411): the frame of every tick and of every host
command, and from them what every step does to the stream, the trace, the configuration and the sticky flags. -/

namespace Sys2Proof.Machine

/-! ### The frame of a tick (R411) -/

theorem tickFrame_refl (s : State) : TickFrame s s := by constructor <;> rfl

/-- What the slow path writes: HALF, WaveBit and the outputs, for any values. -/
theorem tickFrame_of_slowPath (s : State) (h : Half) (v : BitVec 32) (o : Outputs) (es : List Event) :
    TickFrame s { s with seq := { s.seq with half := h, waveBit := v }, out := o, trace := es } := by
  constructor <;> rfl

theorem tickFrame_slowSample (s : State) : TickFrame s (slowSample s) := by
  rcases Nat.lt_or_ge (slowSum s) (2 ^ 32) with hc | hc
  · rw [slowSample_of_no_carry s hc]
    exact tickFrame_of_slowPath s s.seq.half _ _ _
  · rw [slowSample_of_carry s hc]
    by_cases hstays : s.flags.extreme = true ∧ s.seq.half = activeHalf s
    · rw [slowBoundary_of_stays _ s hstays.1 hstays.2]
      exact tickFrame_of_slowPath s s.seq.half _ _ _
    · rw [slowBoundary_of_flips _ s (by simpa [imp_iff_not_or] using hstays)]
      exact tickFrame_of_slowPath s s.seq.half.other _ _ _

theorem tickFrame_fastSample (k : Tier) (s : State) : TickFrame s (fastSample k s) := by
  rcases Nat.lt_or_ge (s.seq.seqIdx.toNat + 1) s.seq.seqLen.toNat with hin | hlast
  · rw [fastSample_of_inside k s hin]
    constructor <;> rfl
  · rw [fastSample_of_last k s hlast]
    rcases Nat.eq_zero_or_pos (dutyCount s s.seq.half.other k) with hempty | hother
    · rw [endHalf_of_sameHalf k _ s hempty]
      constructor <;> rfl
    · rw [endHalf_of_otherHalf k _ s hother]
      constructor <;> rfl

theorem tickFrame_noiseTick (rnd : BitVec 32) (s : State) : TickFrame s (noiseTick rnd s) := by constructor <;> rfl

theorem tickFrame_usqSample (s : State) : TickFrame s (usqSample s) := by
  rcases Nat.lt_or_ge (s.usq.acc.toNat + (s.usq.inc.get s.usq.half).toNat) (2 ^ 32) with hc | hc
  · rw [usqSample_of_no_carry s hc]
    constructor <;> rfl
  · rw [usqSample_of_carry s hc]
    cases hext : s.usq.ext with
    | true => rw [usqBoundary_of_extreme (usqAdvance s) hext]; constructor <;> rfl
    | false => rw [usqBoundary_of_not_extreme (usqAdvance s) hext]; constructor <;> rfl

theorem tickFrame_ditherPoint (s : State) : TickFrame s (ditherPoint s) := by constructor <;> rfl

/-- A tick keeps what R411 says: an enabled one is one sample, a disabled one nothing. -/
theorem tickFrame_exec (i : Instr) (s t : State) (hi : isTick i = true) (ht : exec i s = .next t) : TickFrame s t := by
  cases i
  case tickSlow =>
    obtain rfl := Host.Outcome.next.inj ht
    split
    · exact tickFrame_slowSample s
    · exact tickFrame_refl s
  case tickFast =>
    obtain rfl := Host.Outcome.next.inj ht
    split
    · split
      · exact tickFrame_refl s
      · exact tickFrame_fastSample _ s
    · exact tickFrame_refl s
  case tickNoise rnd =>
    obtain rfl := Host.Outcome.next.inj ht
    split
    · exact tickFrame_noiseTick rnd s
    · exact tickFrame_refl s
  case tickUsq =>
    obtain rfl := Host.Outcome.next.inj ht
    split
    · exact tickFrame_usqSample s
    · exact tickFrame_refl s
  case tickDither =>
    obtain rfl := Host.Outcome.next.inj ht
    split
    · exact tickFrame_ditherPoint s
    · exact tickFrame_refl s
  all_goals cases hi

/-! ### The frame of a host command (R411, 20_memory.md R72) -/

/-- What no host command writes or outputs: a sample, a noise accumulator, the stream. -/
structure CommandFrame (s t : State) : Prop where
  dacOut : t.out.dacOut = s.out.dacOut
  nfFast : t.noise.nfFast = s.noise.nfFast
  nfSlow : t.noise.nfSlow = s.noise.nfSlow
  nfAvg  : t.noise.nfAvg = s.noise.nfAvg
  nfCnt  : t.noise.nfCnt = s.noise.nfCnt
  input  : t.input = s.input
  trace  : ∃ es : List Event, t.trace = s.trace ++ es ∧ ∀ v, .dac v ∉ es

theorem commandFrame_of_hostFrame (s t : State) (h : HostFrame s t) : CommandFrame s t where
  dacOut := h.dacOut
  nfFast := h.nfFast
  nfSlow := h.nfSlow
  nfAvg := h.nfAvg
  nfCnt := h.nfCnt
  input := h.input
  trace := by
    obtain ⟨es, hes, hsq⟩ := h.trace
    refine ⟨es, hes, fun v hv => ?_⟩
    obtain ⟨b, hb⟩ := hsq _ hv
    cases hb

/-- A state that differs in other parts only. -/
theorem commandFrame_of_eq (s t : State) (hout : t.out = s.out) (hnoise : t.noise = s.noise) (hinput : t.input = s.input)
    (htrace : t.trace = s.trace) : CommandFrame s t where
  dacOut := by rw [hout]
  nfFast := by rw [hnoise]
  nfSlow := by rw [hnoise]
  nfAvg := by rw [hnoise]
  nfCnt := by rw [hnoise]
  input := hinput
  trace := ⟨[], by simp [htrace], by simp⟩

theorem commandFrame_trans (s t u : State) (h1 : CommandFrame s t) (h2 : CommandFrame t u) : CommandFrame s u where
  dacOut := h2.dacOut.trans h1.dacOut
  nfFast := h2.nfFast.trans h1.nfFast
  nfSlow := h2.nfSlow.trans h1.nfSlow
  nfAvg := h2.nfAvg.trans h1.nfAvg
  nfCnt := h2.nfCnt.trans h1.nfCnt
  input := h2.input.trans h1.input
  trace := by
    obtain ⟨es, hes, hno⟩ := h1.trace
    obtain ⟨fs, hfs, hno'⟩ := h2.trace
    exact ⟨es ++ fs, by rw [hfs, hes, List.append_assoc], fun v hv => (List.mem_append.mp hv).elim (hno v) (hno' v)⟩

theorem commandFrame_finishPending (s : State) : CommandFrame s (finishPending s) :=
  commandFrame_of_hostFrame _ _ (hostFrame_finishPending s)

theorem commandFrame_response (s : State) (w : Word) : CommandFrame s (emit (.resp w) s) :=
  ⟨rfl, rfl, rfl, rfl, rfl, rfl, [.resp w], rfl, by simp⟩

theorem commandFrame_update_writeReg (r : Reg) (v : Int) (s : State) :
    CommandFrame s (update (writeReg r v (finishPending s))) :=
  commandFrame_of_hostFrame _ _ (hostFrame_update_writeReg r v s)

theorem commandFrame_selectShape (a : Nibble) (s : State) : CommandFrame s (selectShape a s) := by
  refine commandFrame_trans _ _ _ (commandFrame_finishPending s) ?_
  unfold selectShape switchSync
  simp only
  split
  · exact commandFrame_of_eq _ _ rfl rfl rfl rfl
  · split <;> exact commandFrame_of_eq _ _ rfl rfl rfl rfl

theorem commandFrame_holdSync (s : State) : CommandFrame s (holdSync s) := by
  unfold holdSync
  split <;> exact commandFrame_of_eq _ _ rfl rfl rfl rfl

theorem commandFrame_restart (s : State) :
    CommandFrame s (modeSwitch { s with flags := { s.flags with run := true } }) :=
  commandFrame_trans s { s with flags := { s.flags with run := true } } _ (commandFrame_of_eq _ _ rfl rfl rfl rfl)
    (commandFrame_of_hostFrame _ _ (hostFrame_modeSwitch _))

/-- A host command outputs no sample and writes no noise accumulator (R411). -/
theorem commandFrame_exec (i : Instr) (s t : State) (hi : isTick i = false) (ht : exec i s = .next t) :
    CommandFrame s t := by
  have hfinish := commandFrame_finishPending s
  cases i <;> obtain rfl := Host.Outcome.next.inj ht
  case nop => exact commandFrame_of_eq _ _ rfl rfl rfl rfl
  case setfreq imm => exact commandFrame_update_writeReg _ _ s
  case setper imm => exact commandFrame_update_writeReg _ _ s
  case setduty imm => exact commandFrame_update_writeReg _ _ s
  case setpw imm => exact commandFrame_update_writeReg _ _ s
  case tglexact => exact commandFrame_update_writeReg _ _ s
  case setshape a =>
    split
    · exact commandFrame_trans _ _ _ (commandFrame_selectShape a s)
        (commandFrame_of_hostFrame _ _ (hostFrame_modeSwitch _))
    · exact commandFrame_selectShape a s
  case setparam a b imm =>
    split
    · exact commandFrame_of_eq _ _ rfl rfl rfl rfl
    · exact commandFrame_of_hostFrame _ _
        (hostFrame_afterParam a _ _ (hostFrame_writeReg_finishPending _ _ s))
  case tglsync =>
    simp only
    split
    · exact commandFrame_trans _ _ _ hfinish (commandFrame_of_eq _ _ rfl rfl rfl rfl)
    · exact commandFrame_trans _ _ _ hfinish (commandFrame_of_hostFrame _ _ (hostFrame_toggleSync _))
  case wpt v =>
    simp only
    split <;> exact commandFrame_trans _ _ _ hfinish (commandFrame_of_eq _ _ rfl rfl rfl rfl)
  case wpts v w =>
    simp only
    split <;> exact commandFrame_trans _ _ _ hfinish (commandFrame_of_eq _ _ rfl rfl rfl rfl)
  case commit => exact commandFrame_trans _ _ _ hfinish (commandFrame_of_hostFrame _ _ (hostFrame_update _))
  case wpclr => exact commandFrame_trans _ _ _ hfinish (commandFrame_of_eq _ _ rfl rfl rfl rfl)
  case qstat a =>
    split
    · exact commandFrame_of_eq _ _ rfl rfl rfl rfl
    · exact commandFrame_response s _
  case getp a b => exact commandFrame_response s _
  case putp a b imm =>
    split
    · exact commandFrame_of_eq _ _ rfl rfl rfl rfl
    · exact commandFrame_trans _ _ _ hfinish (commandFrame_of_eq _ _ rfl rfl rfl rfl)
  case applyAll =>
    exact commandFrame_trans _ _ _ hfinish
      (commandFrame_trans _ _ _ (commandFrame_holdSync _) (commandFrame_restart _))
  case fgstep => exact hfinish
  all_goals cases hi

/-- Settles O11: each context by its frame; the events a host command adds are what its trace has beyond the old one. -/
theorem contextsWriteOnlyTheirState : Obligations.ContextsWriteOnlyTheirState := by
  intro i s t ht
  refine ⟨fun hi => tickFrame_exec i s t hi ht, fun hi => ?host⟩
  case host =>
    obtain ⟨hdac, hfast, hslow, havg, hcnt, -, es, hes, hno⟩ := commandFrame_exec i s t hi ht
    refine ⟨hdac, hfast, hslow, havg, hcnt, fun v => ?_⟩
    rw [hes, List.drop_left]
    exact hno v

/-! ### What every step does -/

/-- No instruction takes or adds a word of the stream. -/
theorem exec_input (i : Instr) (s t : State) (ht : exec i s = .next t) : t.input = s.input := by
  cases hi : isTick i with
  | true => exact (tickFrame_exec i s t hi ht).input
  | false => exact (commandFrame_exec i s t hi ht).input

/-- Settles O8: a refused word leaves the stream as an accepted one does. -/
theorem everyStepCompletesAndTakesOneWord : Obligations.EveryStepCompletesAndTakesOneWord := by
  intro s
  cases hs : s.input with
  | nil => exact ⟨s, by simp [step, hs], by simp [hs]⟩
  | cons w rest =>
    cases hw : instrOf w with
    | none => exact ⟨_, step_of_instrOf_none s w rest hs hw, rfl⟩
    | some i =>
      obtain ⟨t, ht⟩ := exec_completes i (setInput rest s)
      exact ⟨t, (step_of_instrOf_some s w rest i hs hw).trans ht, exec_input i _ t ht⟩

end Sys2Proof.Machine
end

section
/-! What no step undoes: the configuration and the trace (10_state.md R48, R50), RUN and BADCMD (60_exceptions.md R401,
70_reset_and_hazards.md R442), block by block (`KeptByBlocks`). -/

namespace Sys2Proof.Machine

/-! ### The configuration stays and the trace grows -/

/-- `t` has the configuration of `s`, and its trace begins with that of `s`. -/
structure Extends (s t : State) : Prop where
  cfg   : t.cfg = s.cfg
  trace : ∃ es : List Event, t.trace = s.trace ++ es

theorem extends_refl (s : State) : Extends s s := ⟨rfl, [], by simp⟩

theorem extends_of_eq (s t : State) (hcfg : t.cfg = s.cfg) (htrace : t.trace = s.trace) : Extends s t :=
  ⟨hcfg, [], by simp [htrace]⟩

theorem extends_trans (s t u : State) (h1 : Extends s t) (h2 : Extends t u) : Extends s u := by
  obtain ⟨hc, es, hes⟩ := h1
  obtain ⟨hc', fs, hfs⟩ := h2
  exact ⟨hc'.trans hc, es ++ fs, by rw [hfs, hes, List.append_assoc]⟩

theorem extends_of_hostFrame (s t : State) (h : HostFrame s t) : Extends s t := by
  obtain ⟨es, hes, -⟩ := h.trace
  exact ⟨h.cfg, es, hes⟩

theorem extends_slowSample (s : State) : Extends s (slowSample s) := by
  refine ⟨(tickFrame_slowSample s).cfg, ?_⟩
  rcases Nat.lt_or_ge (slowSum s) (2 ^ 32) with hc | hc
  · rw [slowSample_of_no_carry s hc]
    exact ⟨_, rfl⟩
  · rw [slowSample_of_carry s hc]
    by_cases hstays : s.flags.extreme = true ∧ s.seq.half = activeHalf s
    · rw [slowBoundary_of_stays _ s hstays.1 hstays.2]
      exact ⟨_, rfl⟩
    · rw [slowBoundary_of_flips _ s (by simpa [imp_iff_not_or] using hstays)]
      exact ⟨_, rfl⟩

theorem extends_fastSample (k : Tier) (s : State) : Extends s (fastSample k s) := by
  refine ⟨(tickFrame_fastSample k s).cfg, ?_⟩
  rcases Nat.lt_or_ge (s.seq.seqIdx.toNat + 1) s.seq.seqLen.toNat with hin | hlast
  · rw [fastSample_of_inside k s hin]
    exact ⟨_, rfl⟩
  · rw [fastSample_of_last k s hlast]
    rcases Nat.eq_zero_or_pos (dutyCount s s.seq.half.other k) with hempty | hother
    · rw [endHalf_of_sameHalf k _ s hempty]
      exact ⟨_, rfl⟩
    · rw [endHalf_of_otherHalf k _ s hother]
      exact ⟨_, rfl⟩

theorem extends_usqSample (s : State) : Extends s (usqSample s) := by
  refine ⟨(tickFrame_usqSample s).cfg, ?_⟩
  rcases Nat.lt_or_ge (s.usq.acc.toNat + (s.usq.inc.get s.usq.half).toNat) (2 ^ 32) with hc | hc
  · rw [usqSample_of_no_carry s hc]
    exact ⟨[], (List.append_nil _).symm⟩
  · rw [usqSample_of_carry s hc]
    cases hext : s.usq.ext with
    | true => rw [usqBoundary_of_extreme (usqAdvance s) hext]; exact ⟨_, rfl⟩
    | false => rw [usqBoundary_of_not_extreme (usqAdvance s) hext]; exact ⟨_, rfl⟩

theorem extends_restart (s : State) : Extends s (modeSwitch { s with flags := { s.flags with run := true } }) :=
  extends_trans s { s with flags := { s.flags with run := true } } _ (extends_of_eq _ _ rfl rfl)
    (extends_of_hostFrame _ _ (hostFrame_modeSwitch _))

theorem keptByBlocks_extends (s : State) : KeptByBlocks (Extends s) where
  input _ _ h := extends_trans _ _ _ h (extends_of_eq _ _ rfl rfl)
  refused _ h := extends_trans _ _ _ h (extends_of_eq _ _ rfl rfl)
  response e _ h := extends_trans _ _ _ h ⟨rfl, [e], rfl⟩
  finish t h := extends_trans _ _ _ h (extends_of_hostFrame _ _ (hostFrame_finishPending t))
  write _ _ _ h := extends_trans _ _ _ h (extends_of_eq _ _ rfl rfl)
  prior _ _ h := extends_trans _ _ _ h (extends_of_eq _ _ rfl rfl)
  truncated _ h := extends_trans _ _ _ h (extends_of_eq _ _ rfl rfl)
  append _ _ _ h := extends_trans _ _ _ h (extends_of_eq _ _ rfl rfl)
  appendPair _ _ _ _ h := extends_trans _ _ _ h (extends_of_eq _ _ rfl rfl)
  clear _ h := extends_trans _ _ _ h (extends_of_eq _ _ rfl rfl)
  updated t _ h := extends_trans _ _ _ h (extends_of_hostFrame _ _ (hostFrame_update t))
  restarted t _ h := extends_trans _ _ _ h (extends_restart t)
  squared t h := extends_trans _ _ _ h (extends_of_hostFrame _ _ (hostFrame_deriveSquare t))
  squareEnded _ h := extends_trans _ _ _ h (extends_of_eq _ _ rfl rfl)
  levelled t h := extends_trans _ _ _ h (extends_of_hostFrame _ _ (hostFrame_syncLevel t))
  slow t _ h := extends_trans _ _ _ h (extends_slowSample t)
  fast k t _ _ h := extends_trans _ _ _ h (extends_fastSample k t)
  noise _ _ _ h := extends_trans _ _ _ h ⟨rfl, _, rfl⟩
  usq t _ h := extends_trans _ _ _ h (extends_usqSample t)
  dither _ _ _ h := extends_trans _ _ _ h (extends_of_eq _ _ rfl rfl)

/-- Settles O9: every block extends the state it is given. -/
theorem stepKeepsConfigurationAndExtendsTrace : Obligations.StepKeepsConfigurationAndExtendsTrace := by
  intro s t ht
  obtain ⟨hcfg, htrace⟩ := (keptByBlocks_extends s).step s t (extends_refl s) ht
  exact ⟨hcfg, htrace⟩

/-! ### RUN and BADCMD stay set -/

/-- RUN and BADCMD are set in `t` where they are in `s`. -/
structure KeepsSet (s t : State) : Prop where
  run    : s.flags.run = true → t.flags.run = true
  badCmd : s.flags.badCmd = true → t.flags.badCmd = true

theorem keptByBlocks_keepsSet (s : State) : KeptByBlocks (KeepsSet s) where
  input ws t h := ⟨h.run, h.badCmd⟩
  refused t h := ⟨h.run, fun _ => rfl⟩
  response e t h := ⟨h.run, h.badCmd⟩
  finish t h := ⟨by simpa using h.run, by simpa using h.badCmd⟩
  write r v t h := ⟨h.run, h.badCmd⟩
  prior b t h := ⟨h.run, h.badCmd⟩
  truncated t h := ⟨h.run, h.badCmd⟩
  append v t _ h := ⟨h.run, h.badCmd⟩
  appendPair v w t _ h := ⟨h.run, h.badCmd⟩
  clear t h := ⟨h.run, h.badCmd⟩
  updated t _ h := ⟨by simpa using h.run, by simpa using h.badCmd⟩
  restarted t _ h := ⟨by simp, by simpa using h.badCmd⟩
  squared t h := ⟨by simpa using h.run, by simpa using h.badCmd⟩
  squareEnded t h := ⟨h.run, h.badCmd⟩
  levelled t h := ⟨by simpa using h.run, by simpa using h.badCmd⟩
  slow t _ h := ⟨by simpa using h.run, by simpa using h.badCmd⟩
  fast k t _ _ h := ⟨by simpa using h.run, by simpa using h.badCmd⟩
  noise rnd t _ h := ⟨h.run, h.badCmd⟩
  usq t _ h := ⟨by simpa using h.run, by simpa using h.badCmd⟩
  dither t _ _ h := ⟨h.run, h.badCmd⟩

/-- Settles O10: no block clears either flag. -/
theorem runAndBadCmdStaySet : Obligations.RunAndBadCmdStaySet := by
  intro s t ht
  obtain ⟨hrun, hbad⟩ := (keptByBlocks_keepsSet s).step s t ⟨id, id⟩ ht
  exact ⟨hrun, hbad⟩

end Sys2Proof.Machine
end

section
/-! What the mode switch (40_clock_and_tier.md R130) and phase A (43_downsampler_and_tier_buffers.md R226) leave, field by
field, each said once: the invariants and the statements about APPLY and COMMIT cite it. -/

namespace Sys2Proof.Machine

/-! ### What a derivation depends on -/

theorem halfRecordOf_congr (s u : State) (fm : FastMode) (h : Half) (hp : u.params = s.params)
    (hw : u.waypoints = s.waypoints) (hc : u.cfg = s.cfg) :
    halfRecordOf u fm (rateNumbers u fm) h = halfRecordOf s fm (rateNumbers s fm) h := by
  rw [← derive_halves_get, ← derive_halves_get, derive_congr s u fm hp hw hc]

theorem rateNumbers_congr (s u : State) (fm : FastMode) (hp : u.params = s.params) (hc : u.cfg = s.cfg) :
    rateNumbers u fm = rateNumbers s fm := by
  simp only [rateNumbers, hp, hc]

theorem commonOf_congr (s u : State) (fm : FastMode) (hp : u.params = s.params) (hw : u.waypoints = s.waypoints)
    (hc : u.cfg = s.cfg) : commonOf u fm (rateNumbers u fm) = commonOf s fm (rateNumbers s fm) := by
  rw [← derive_common, ← derive_common, derive_congr s u fm hp hw hc]

theorem selectTier_congr (s u : State) (hp : u.params = s.params) (hc : u.cfg = s.cfg) : selectTier u = selectTier s := by
  simp only [selectTier, hp, hc]

/-! ### The mode switch -/

/-- The half `h` of the derivation the mode switch installs. -/
def startedHalf (s : State) (h : Half) : HalfRecord :=
  halfRecordOf s (selectTier s) (rateNumbers s (selectTier s)) h

/-- What the wave branch of the mode switch leaves in `t`, started in `s`. -/
structure WaveStarted (s t : State) : Prop where
  fastMode  : t.seq.fastMode = selectTier s
  wf        : ∀ h, t.tables.wf.get h = (startedHalf s h).wf
  rt        : ∀ h, t.tables.rt.get h = (startedHalf s h).rt
  duty      : ∀ h, t.tables.dutyT.get h = (startedHalf s h).duty
  tb        : ∀ k h, (t.tables.tb.get k).get h =
    if selectTier s = .fast k then (startedHalf s h).tb else (s.tables.tb.get k).get h
  incBase   : ∀ h, t.seq.incBase.get h = (startedHalf s h).incBase
  incFrac   : ∀ h, t.seq.incFrac.get h = (startedHalf s h).incFrac
  ratio     : ∀ h, t.seq.ratio.get h = (startedHalf s h).ratio
  increment : ∀ h, t.seq.increment.get h = (startedHalf s h).increment
  derived   : t.derived = (commonOf s (selectTier s) (rateNumbers s (selectTier s))).regs
  extreme   : t.flags.extreme = (rateNumbers s (selectTier s)).extreme
  dutyNot50 : t.flags.dutyNot50 = isNot50 (rateNumbers s (selectTier s)).dutyA
  ditherOn  : t.flags.ditherOn = isDither (selectTier s) s.params.fTarget.toNat
  waveBit   : t.seq.waveBit = 0
  dacc      : t.seq.dacc = ⟨0, 0⟩
  seqIdx    : t.seq.seqIdx = 0
  pend      : t.flags.pend = false
  enNoise   : t.flags.enNoise = false
  enSlow    : t.flags.enSlow = true ↔ selectTier s = .slow
  enFast    : t.flags.enFast = true ↔ selectTier s ≠ .slow
  halfSlow  : selectTier s = .slow → t.seq.half = if 0 < t.derived.dutyA.toNat then .first else .second
  halfFast  : ∀ k, selectTier s = .fast k → t.seq.half = if 0 < dutyCount t .first k then .first else .second
  seqLen    : ∀ k, selectTier s = .fast k → t.seq.seqLen = BitVec.ofNat 8 (max (dutyCount t t.seq.half k) 1)

/-- The derivation installed and the path started, before the pin is handed over (R130). -/
def installedWave (s : State) : State :=
  enableWave (selectTier s) (installWave (selectTier s) (noiseCoeffs (teardown s)))

theorem waveStarted_installedWave (s : State) : WaveStarted s (installedWave s) := by
  obtain ⟨hwf, hrt, hduty, hbase, hfrac, hratio, hinc, htb, hder, hext, hnot50, hdith⟩ :=
    installWave_eq (selectTier s) (noiseCoeffs (teardown s))
  obtain ⟨hfm, -, hbit, hdacc, hidx, -⟩ := installWave_seq (selectTier s) (noiseCoeffs (teardown s))
  have hhalf : ∀ h, halfRecordOf (noiseCoeffs (teardown s)) (selectTier s)
      (rateNumbers (noiseCoeffs (teardown s)) (selectTier s)) h = startedHalf s h :=
    fun h => halfRecordOf_congr s _ _ h rfl rfl rfl
  have hcommon := commonOf_congr s (noiseCoeffs (teardown s)) (selectTier s) rfl rfl rfl
  have hrates := rateNumbers_congr s (noiseCoeffs (teardown s)) (selectTier s) rfl rfl
  simp only [hhalf] at hwf hrt hduty hbase hfrac hratio hinc htb
  rw [hcommon] at hder
  rw [hrates] at hext hnot50
  unfold installedWave
  constructor
  case fastMode => simpa using hfm
  case wf => simpa using hwf
  case rt => simpa using hrt
  case duty => simpa using hduty
  case tb => simpa using htb
  case incBase => simpa using hbase
  case incFrac => simpa using hfrac
  case ratio => simpa using hratio
  case increment => simpa using hinc
  case derived => simpa using hder
  case extreme => simpa using hext
  case dutyNot50 => simpa using hnot50
  case ditherOn => simpa using hdith
  case waveBit => simpa using hbit
  case dacc => simpa using hdacc
  case seqIdx => simpa using hidx
  case pend => simp
  case enNoise => simp
  case enSlow => cases hk : selectTier s <;> simp [enableWave]
  case enFast => cases hk : selectTier s <;> simp [enableWave]
  case halfSlow =>
    intro hk
    rw [hk]
    rfl
  case halfFast =>
    intro k hk
    rw [hk]
    rfl
  case seqLen =>
    intro k hk
    obtain ⟨hstart, hlen, -, -⟩ := enableWave_fast k (installWave (.fast k) (noiseCoeffs (teardown s)))
    rw [hk, hlen, hstart]
    simp [dutyCount]

/-- Handing over the pin changes nothing that `WaveStarted` names. -/
theorem waveStarted_handover (s t : State) (h : WaveStarted s t) : WaveStarted s (deriveSquare (syncLevel t)) := by
  cases h
  constructor <;> simpa [dutyCount] using by assumption

/-- The mode switch into a wave installs it and hands the pin over. -/
theorem modeSwitch_eq_handover (s : State) (hn : shapeOf s.params ≠ .noise) :
    modeSwitch s = deriveSquare (syncLevel (installedWave s)) := modeSwitch_of_wave s hn

theorem waveStarted_modeSwitch (s : State) (hn : shapeOf s.params ≠ .noise) : WaveStarted s (modeSwitch s) := by
  rw [modeSwitch_eq_handover s hn]
  exact waveStarted_handover s _ (waveStarted_installedWave s)

/-- What the noise branch of the mode switch leaves in `t`, started in `s`. -/
structure NoiseStarted (s t : State) : Prop where
  tables  : t.tables = s.tables
  seq     : t.seq = s.seq
  derived : t.derived = s.derived
  noise   : t.noise = (noiseCoeffs s).noise
  pend    : t.flags.pend = false
  enNoise : t.flags.enNoise = true
  enSlow  : t.flags.enSlow = false
  enFast  : t.flags.enFast = false

theorem noiseStarted_modeSwitch (s : State) (hn : shapeOf s.params = .noise) : NoiseStarted s (modeSwitch s) := by
  rw [modeSwitch_of_noise s hn]
  constructor
  case noise => simp; rfl
  all_goals simp

/-- On either branch the mode switch sets the noise coefficients and leaves the filters (47_noise.md R334). -/
@[simp] theorem modeSwitch_noise (s : State) : (modeSwitch s).noise = (noiseCoeffs s).noise := by
  by_cases hn : shapeOf s.params = .noise
  · exact (noiseStarted_modeSwitch s hn).noise
  · rw [modeSwitch_of_wave s hn]
    simp
    rfl

/-! ### Phase A of a commit -/

/-- The half `h` of the derivation phase A commits. -/
def committedHalf (s : State) (h : Half) : HalfRecord :=
  halfRecordOf s s.seq.fastMode (rateNumbers s s.seq.fastMode) h

/-- Phase A in the tier already running. -/
def phaseA (s : State) : State := commitTwoPhase (derive s s.seq.fastMode) s

/-- What phase A leaves in `t`, started in `s`: the half not being output takes its new values, SH those of the other. -/
structure PhaseADone (s t : State) : Prop where
  wf        : t.tables.wf = s.tables.wf.set s.seq.half.other (committedHalf s s.seq.half.other).wf
  rt        : t.tables.rt = s.tables.rt.set s.seq.half.other (committedHalf s s.seq.half.other).rt
  duty      : t.tables.dutyT = s.tables.dutyT.set s.seq.half.other (committedHalf s s.seq.half.other).duty
  tb        : ∀ k h, (t.tables.tb.get k).get h =
    if s.seq.fastMode = .fast k ∧ h = s.seq.half.other then (committedHalf s s.seq.half.other).tb
    else (s.tables.tb.get k).get h
  seq       : t.seq = commitSteps (committedHalf s s.seq.half.other) s.seq.half.other s.seq
  shadow    : t.shadow = committedHalf s s.seq.half
  derived   : t.derived = (commonOf s s.seq.fastMode (rateNumbers s s.seq.fastMode)).regs
  flags     : t.flags = { s.flags with
    extreme := (derive s s.seq.fastMode).common.extreme
    dutyNot50 := (derive s s.seq.fastMode).common.dutyNot50
    ditherOn := (derive s s.seq.fastMode).common.ditherOn
    pend := true
    pendHalf := s.seq.half }

theorem phaseADone_phaseA (s : State) : PhaseADone s (phaseA s) := by
  have hhalf : ∀ h, (derive s s.seq.fastMode).halves.get h = committedHalf s h := fun h => derive_halves_get _ _ h
  obtain ⟨htables, hseq, hderived, hshadow⟩ := commitTwoPhase_eq (derive s s.seq.fastMode) s
  rw [hhalf] at htables hseq hshadow
  unfold phaseA
  constructor
  case wf => exact congrArg Tables.wf htables
  case rt => exact congrArg Tables.rt htables
  case duty => exact congrArg Tables.dutyT htables
  case tb =>
    intro k h
    rw [congrArg Tables.tb htables]
    exact commitHalf_tb_get _ _ s k h
  case seq => exact hseq
  case shadow => exact hshadow
  case derived => exact hderived
  case flags => rfl

/-- What `Update` keeps, from what each of its cases keeps. -/
theorem kept_update {P : State → Prop} (s : State) (h : P s) (hnoise : P (noiseCoeffs s)) (hphase : P (phaseA s))
    (hswitch : s.flags.run = true → P (modeSwitch s)) : P (update s) := by
  rcases update_cases s with ⟨-, e⟩ | ⟨-, -, e⟩ | ⟨-, -, -, e⟩ | ⟨hrun, -, -, e⟩ <;> rw [e]
  · exact h
  · exact hnoise
  · exact hphase
  · exact hswitch hrun

/-! ### Phase B -/

/-- The tier buffers after phase B (43_downsampler_and_tier_buffers.md R227). -/
theorem finishPending_tb_get (s : State) (hp : s.flags.pend = true) (k : Tier) (h : Half) :
    ((finishPending s).tables.tb.get k).get h =
      if s.seq.fastMode = .fast k ∧ h = s.flags.pendHalf then s.shadow.tb else (s.tables.tb.get k).get h := by
  rw [finishPending_of_pending s hp]
  exact commitHalf_tb_get _ _ s k h

theorem finishPending_wf (s : State) (hp : s.flags.pend = true) :
    (finishPending s).tables.wf = s.tables.wf.set s.flags.pendHalf s.shadow.wf := by
  rw [finishPending_of_pending s hp]
  rfl

theorem finishPending_rt (s : State) (hp : s.flags.pend = true) :
    (finishPending s).tables.rt = s.tables.rt.set s.flags.pendHalf s.shadow.rt := by
  rw [finishPending_of_pending s hp]
  rfl

theorem finishPending_dutyT (s : State) (hp : s.flags.pend = true) :
    (finishPending s).tables.dutyT = s.tables.dutyT.set s.flags.pendHalf s.shadow.duty := by
  rw [finishPending_of_pending s hp]
  rfl

theorem finishPending_seq (s : State) (hp : s.flags.pend = true) :
    (finishPending s).seq = commitSteps s.shadow s.flags.pendHalf s.seq := by
  rw [finishPending_of_pending s hp]
  rfl

/-! ### The independent square wave -/

/-- `DeriveSquare` enables at most one of the two paths, and none while the machine is stopped. -/
theorem deriveSquare_enables (s : State) :
    ¬ ((deriveSquare s).flags.enUsq = true ∧ (deriveSquare s).flags.enPwm = true) ∧
      (s.flags.run = false → (deriveSquare s).flags.enUsq = false ∧ (deriveSquare s).flags.enPwm = false) := by
  rcases deriveSquare_cases s with ⟨-, h⟩ | ⟨-, hrun, -, h⟩ | ⟨-, hrun, -, h⟩
  · rw [h]; simp
  · rw [h]; simp [hrun]
  · rw [h]; simp [hrun]

end Sys2Proof.Machine
end

section
/-! Invariants of the tables and the waypoint memory (20_memory.md R60, R64 to R66, 70_reset_and_hazards.md R442,
43_downsampler_and_tier_buffers.md R214). Only phase B, phase A and the mode switch write a table, and only WPT, WPTS and
WPCLR a waypoint; each invariant is checked against those. -/

namespace Sys2Proof.Machine

/-! ### Properties of the tables and of what enables reading them -/

/-- `t` has the tables, the half still to be committed, the tier and the path enables of `s`. -/
structure SameTables (s t : State) : Prop where
  tables   : t.tables = s.tables
  shadow   : t.shadow = s.shadow
  fastMode : t.seq.fastMode = s.seq.fastMode
  pend     : t.flags.pend = s.flags.pend
  pendHalf : t.flags.pendHalf = s.flags.pendHalf
  enSlow   : t.flags.enSlow = s.flags.enSlow
  enFast   : t.flags.enFast = s.flags.enFast
  cfg      : t.cfg = s.cfg

theorem sameTables_of_tickFrame (s t : State) (h : TickFrame s t) : SameTables s t := by
  constructor
  case tables => exact h.tables
  case shadow => exact h.shadow
  case fastMode => exact h.fastMode
  case cfg => exact h.cfg
  all_goals rw [h.flags]

theorem sameTables_deriveSquare (s : State) : SameTables s (deriveSquare s) := by constructor <;> simp

theorem sameTables_syncLevel (s : State) : SameTables s (syncLevel s) := by constructor <;> simp

/-- A property of the tables that phase B, phase A and the mode switch keep is kept by every block. -/
theorem keptByBlocks_of_tables {P : State → Prop} (hcongr : ∀ s t, SameTables s t → P s → P t)
    (hfinish : ∀ s, s.flags.pend = true → P s → P (finishPending s))
    (hphase : ∀ s, s.flags.pend = false → P s → P (phaseA s))
    (hswitch : ∀ s, s.flags.pend = false → P s → P (modeSwitch s)) : KeptByBlocks P where
  input _ s h := hcongr s _ ⟨rfl, rfl, rfl, rfl, rfl, rfl, rfl, rfl⟩ h
  refused s h := hcongr s _ ⟨rfl, rfl, rfl, rfl, rfl, rfl, rfl, rfl⟩ h
  response _ s h := hcongr s _ ⟨rfl, rfl, rfl, rfl, rfl, rfl, rfl, rfl⟩ h
  finish s h := by
    cases hp : s.flags.pend with
    | false => rwa [finishPending_of_idle s hp]
    | true => exact hfinish s hp h
  write _ _ s h := hcongr s _ ⟨rfl, rfl, rfl, rfl, rfl, rfl, rfl, rfl⟩ h
  prior _ s h := hcongr s _ ⟨rfl, rfl, rfl, rfl, rfl, rfl, rfl, rfl⟩ h
  truncated s h := hcongr s _ ⟨rfl, rfl, rfl, rfl, rfl, rfl, rfl, rfl⟩ h
  append _ s _ h := hcongr s _ ⟨rfl, rfl, rfl, rfl, rfl, rfl, rfl, rfl⟩ h
  appendPair _ _ s _ h := hcongr s _ ⟨rfl, rfl, rfl, rfl, rfl, rfl, rfl, rfl⟩ h
  clear s h := hcongr s _ ⟨rfl, rfl, rfl, rfl, rfl, rfl, rfl, rfl⟩ h
  updated s hp h := kept_update s h (hcongr s _ ⟨rfl, rfl, rfl, rfl, rfl, rfl, rfl, rfl⟩ h) (hphase s hp h)
    fun _ => hswitch s hp h
  restarted s hp h := hswitch _ hp (hcongr s _ ⟨rfl, rfl, rfl, rfl, rfl, rfl, rfl, rfl⟩ h)
  squared s h := hcongr s _ (sameTables_deriveSquare s) h
  squareEnded s h := hcongr s _ ⟨rfl, rfl, rfl, rfl, rfl, rfl, rfl, rfl⟩ h
  levelled s h := hcongr s _ (sameTables_syncLevel s) h
  slow s _ h := hcongr s _ (sameTables_of_tickFrame _ _ (tickFrame_slowSample s)) h
  fast k s _ _ h := hcongr s _ (sameTables_of_tickFrame _ _ (tickFrame_fastSample k s)) h
  noise rnd s _ h := hcongr s _ (sameTables_of_tickFrame _ _ (tickFrame_noiseTick rnd s)) h
  usq s _ h := hcongr s _ (sameTables_of_tickFrame _ _ (tickFrame_usqSample s)) h
  dither s _ _ h := hcongr s _ (sameTables_of_tickFrame _ _ (tickFrame_ditherPoint s)) h

/-! ### Every written cell is a sample (20_memory.md R64) -/

theorem tablesHoldSamples_congr (s t : State) (e : SameTables s t) (h : TablesHoldSamples s) : TablesHoldSamples t := by
  obtain ⟨hwf, hrt, htb, hswf, hsrt, hstb⟩ := h
  constructor <;> simpa only [e.tables, e.shadow]

theorem tablesHoldSamples_finishPending (s : State) (hp : s.flags.pend = true) (h : TablesHoldSamples s) :
    TablesHoldSamples (finishPending s) where
  wf k := by
    rw [finishPending_wf s hp, PerHalf.get_set]
    split
    · exact h.shadowWf
    · exact h.wf k
  rt k := by
    rw [finishPending_rt s hp, PerHalf.get_set]
    split
    · exact h.shadowRt
    · exact h.rt k
  tb t k := by
    rw [finishPending_tb_get s hp]
    split
    · exact h.shadowTb
    · exact h.tb t k
  shadowWf := by simpa using h.shadowWf
  shadowRt := by simpa using h.shadowRt
  shadowTb := by simpa using h.shadowTb

theorem tablesHoldSamples_phaseA (s : State) (h : TablesHoldSamples s) : TablesHoldSamples (phaseA s) := by
  have hA := phaseADone_phaseA s
  constructor
  case wf =>
    intro k
    rw [hA.wf, PerHalf.get_set]
    split
    · exact halfRecordOf_wf_samples _ _ _ _
    · exact h.wf k
  case rt =>
    intro k
    rw [hA.rt, PerHalf.get_set]
    split
    · exact halfRecordOf_rt_samples _ _ _ _
    · exact h.rt k
  case tb =>
    intro t k
    rw [hA.tb]
    split
    · exact halfRecordOf_tb_samples _ _ _ _
    · exact h.tb t k
  case shadowWf => rw [hA.shadow]; exact halfRecordOf_wf_samples _ _ _ _
  case shadowRt => rw [hA.shadow]; exact halfRecordOf_rt_samples _ _ _ _
  case shadowTb => rw [hA.shadow]; exact halfRecordOf_tb_samples _ _ _ _

theorem tablesHoldSamples_modeSwitch (s : State) (h : TablesHoldSamples s) : TablesHoldSamples (modeSwitch s) := by
  obtain ⟨hwf, hrt, htb, hswf, hsrt, hstb⟩ := h
  by_cases hn : shapeOf s.params = .noise
  · constructor <;> simpa only [(noiseStarted_modeSwitch s hn).tables, modeSwitch_shadow]
  · have hW := waveStarted_modeSwitch s hn
    constructor
    case wf => intro k; rw [hW.wf]; exact halfRecordOf_wf_samples _ _ _ _
    case rt => intro k; rw [hW.rt]; exact halfRecordOf_rt_samples _ _ _ _
    case tb =>
      intro t k
      rw [hW.tb]
      split
      · exact halfRecordOf_tb_samples _ _ _ _
      · exact htb t k
    all_goals simpa only [modeSwitch_shadow]

/-- Settles O15: every derived half holds samples, and only derived halves are committed. -/
theorem stepKeepsTableSamples : Obligations.StepKeepsTableSamples := by
  intro s t
  have hkept : KeptByBlocks TablesHoldSamples := keptByBlocks_of_tables tablesHoldSamples_congr
    tablesHoldSamples_finishPending (fun s _ => tablesHoldSamples_phaseA s) (fun s _ => tablesHoldSamples_modeSwitch s)
  exact hkept.step s t

/-! ### Every cell an enabled tick can read is written (70_reset_and_hazards.md R442) -/

theorem readableTablesWritten_congr (s t : State) (e : SameTables s t) (h : ReadableTablesWritten s) :
    ReadableTablesWritten t := by
  obtain ⟨hslow, hfast, hsslow, hsfast⟩ := h
  constructor <;> simpa only [e.tables, e.shadow, e.fastMode, e.pend, e.enSlow, e.enFast]

theorem readableTablesWritten_finishPending (s : State) (hp : s.flags.pend = true) (h : ReadableTablesWritten s) :
    ReadableTablesWritten (finishPending s) where
  slow he k := by
    rw [finishPending_wf s hp, PerHalf.get_set]
    split
    · exact h.shadowSlow hp
    · exact h.slow (by simpa using he) k
  fast he t ht k := by
    rw [finishPending_seq_fastMode] at ht
    rw [finishPending_tb_get s hp]
    split
    · exact h.shadowFast hp t ht
    · exact h.fast (by simpa using he) t ht k
  shadowSlow hq := by simp at hq
  shadowFast hq := by simp at hq

/-- A half derived for tier `t` has all the cells of its buffer. -/
theorem committedHalf_tb_filled (s : State) (t : Tier) (h : Half) (ht : s.seq.fastMode = .fast t) :
    Memory.filled (samplesPerCycle t) (committedHalf s h).tb := by
  rw [committedHalf, ht]
  exact halfRecordOf_tb_filled s t _ h

theorem startedHalf_tb_filled (s : State) (t : Tier) (h : Half) (ht : selectTier s = .fast t) :
    Memory.filled (samplesPerCycle t) (startedHalf s h).tb := by
  rw [startedHalf, ht]
  exact halfRecordOf_tb_filled s t _ h

theorem readableTablesWritten_phaseA (s : State) (h : ReadableTablesWritten s) : ReadableTablesWritten (phaseA s) := by
  have hA := phaseADone_phaseA s
  have hfm : (phaseA s).seq.fastMode = s.seq.fastMode := commitTwoPhase_seq_fastMode _ s
  constructor
  case slow =>
    intro he k
    rw [hA.wf, PerHalf.get_set]
    split
    · exact halfRecordOf_wf_filled _ _ _ _
    · exact h.slow he k
  case fast =>
    intro he t ht k
    rw [hfm] at ht
    rw [hA.tb]
    split
    · exact committedHalf_tb_filled s t _ ht
    · exact h.fast he t ht k
  case shadowSlow =>
    intro _
    rw [hA.shadow]
    exact halfRecordOf_wf_filled _ _ _ _
  case shadowFast =>
    intro _ t ht
    rw [hA.shadow]
    exact committedHalf_tb_filled s t _ (hfm ▸ ht)

theorem readableTablesWritten_modeSwitch (s : State) : ReadableTablesWritten (modeSwitch s) := by
  by_cases hn : shapeOf s.params = .noise
  · have hN := noiseStarted_modeSwitch s hn
    constructor
    case slow => intro he; simp [hN.enSlow] at he
    case fast => intro he; simp [hN.enFast] at he
    all_goals intro hp; simp [hN.pend] at hp
  · have hW := waveStarted_modeSwitch s hn
    constructor
    case slow => intro _ k; rw [hW.wf]; exact halfRecordOf_wf_filled _ _ _ _
    case fast =>
      intro _ t ht k
      rw [hW.fastMode] at ht
      rw [hW.tb, if_pos ht]
      exact startedHalf_tb_filled s t k ht
    all_goals intro hp; simp [hW.pend] at hp

/-- Settles O16: a path is enabled by the mode switch, which has just written its tables, and a commit replaces a half by a
whole one. -/
theorem stepKeepsReadableTablesWritten : Obligations.StepKeepsReadableTablesWritten := by
  intro s t
  have hkept : KeptByBlocks ReadableTablesWritten := keptByBlocks_of_tables readableTablesWritten_congr
    readableTablesWritten_finishPending (fun s _ => readableTablesWritten_phaseA s)
    (fun s _ _ => readableTablesWritten_modeSwitch s)
  exact hkept.step s t

/-! ### The sums of the DutyTable (20_memory.md R65, 43_downsampler_and_tier_buffers.md R214, R228) -/

/-- The DutyTable sums under a valid configuration, whose MINMAXDUTY the counts need. -/
structure ValidSums (s : State) : Prop where
  valid : s.cfg.valid = true
  sums  : DutyTableSums s

theorem dutyCount_congr (s t : State) (h : t.tables = s.tables) : dutyCount t = dutyCount s := by
  funext k j
  rw [dutyCount, h, dutyCount]

theorem validSums_congr (s t : State) (e : SameTables s t) (h : ValidSums s) : ValidSums t := by
  obtain ⟨hv, hsettled, hpending⟩ := h
  refine ⟨by rwa [e.cfg], ?_, ?_⟩
  all_goals simpa only [dutyCount_congr s t e.tables, e.shadow, e.pend, e.pendHalf]

/-- The sum over both halves from any one half. -/
theorem sum_halves (f : Half → Nat) (h : Half) : f .first + f .second = f h.other + f h := by
  cases h
  · exact Nat.add_comm _ _
  · rfl

theorem countFor_sum_other (c : Cfg) (hc : c.valid = true) (d : Nat) (h : Half) (t : Tier) :
    countFor c d h.other t + countFor c d h t = samplesPerCycle t :=
  (sum_halves (fun k => countFor c d k t) h).symm.trans (countFor_sum c hc d t)

theorem dutyCount_finishPending (s : State) (hp : s.flags.pend = true) (h : Half) (t : Tier) :
    dutyCount (finishPending s) h t =
      if h = s.flags.pendHalf then (s.shadow.duty.get t).toNat else dutyCount s h t := by
  rw [dutyCount, finishPending_dutyT s hp, PerHalf.get_set]
  split <;> rfl

theorem validSums_finishPending (s : State) (hp : s.flags.pend = true) (h : ValidSums s) :
    ValidSums (finishPending s) := by
  refine ⟨by simpa using h.valid, fun _ t => .inl ?_, fun hq => by simp at hq⟩
  rw [sum_halves (fun k => dutyCount (finishPending s) k t) s.flags.pendHalf, dutyCount_finishPending s hp,
    dutyCount_finishPending s hp, if_pos rfl, if_neg (Half.other_ne _)]
  exact h.sums.pending hp t

theorem committedHalf_duty_toNat (s : State) (hc : s.cfg.valid = true) (h : Half) (t : Tier) :
    ((committedHalf s h).duty.get t).toNat = countFor s.cfg s.params.duty.toNat h t :=
  dutyCells_get s.cfg hc _ h t

theorem startedHalf_duty_toNat (s : State) (hc : s.cfg.valid = true) (h : Half) (t : Tier) :
    ((startedHalf s h).duty.get t).toNat = countFor s.cfg s.params.duty.toNat h t :=
  dutyCells_get s.cfg hc _ h t

theorem dutyCount_phaseA (s : State) (hc : s.cfg.valid = true) (h : Half) (t : Tier) :
    dutyCount (phaseA s) h t =
      if h = s.seq.half.other then countFor s.cfg s.params.duty.toNat h t else dutyCount s h t := by
  rw [dutyCount, (phaseADone_phaseA s).duty, PerHalf.get_set]
  split
  · subst_vars
    exact committedHalf_duty_toNat s hc _ t
  · rfl

theorem validSums_phaseA (s : State) (h : ValidSums s) : ValidSums (phaseA s) := by
  have hA := phaseADone_phaseA s
  refine ⟨h.valid, fun hq => ?_, fun _ t => ?_⟩
  · rw [hA.flags] at hq
    cases hq
  · rw [hA.flags, hA.shadow, dutyCount_phaseA s h.valid, if_pos rfl, committedHalf_duty_toNat s h.valid]
    exact countFor_sum_other s.cfg h.valid _ s.seq.half t

theorem dutyCount_waveStarted (s t : State) (hc : s.cfg.valid = true) (hW : WaveStarted s t) (h : Half) (k : Tier) :
    dutyCount t h k = countFor s.cfg s.params.duty.toNat h k := by
  rw [dutyCount, hW.duty]
  exact startedHalf_duty_toNat s hc h k

theorem validSums_modeSwitch (s : State) (hp : s.flags.pend = false) (h : ValidSums s) : ValidSums (modeSwitch s) := by
  refine ⟨by simpa using h.valid, ?_⟩
  by_cases hn : shapeOf s.params = .noise
  · have hN := noiseStarted_modeSwitch s hn
    refine ⟨fun _ t => ?_, fun hq => by simp [hN.pend] at hq⟩
    rw [dutyCount_congr s _ hN.tables]
    exact h.sums.settled hp t
  · have hW := waveStarted_modeSwitch s hn
    refine ⟨fun _ t => .inl ?_, fun hq => by simp [hW.pend] at hq⟩
    rw [dutyCount_waveStarted s _ h.valid hW, dutyCount_waveStarted s _ h.valid hW]
    exact countFor_sum s.cfg h.valid _ t

theorem keptByBlocks_validSums : KeptByBlocks ValidSums :=
  keptByBlocks_of_tables validSums_congr validSums_finishPending (fun s _ => validSums_phaseA s) validSums_modeSwitch

/-- Settles O17: the counts of one duty make a full cycle, and a commit puts the new count of one half in the table and
that of the other in SH. -/
theorem stepKeepsDutyTableSums : Obligations.StepKeepsDutyTableSums := fun s t hc h ht =>
  (keptByBlocks_validSums.step s t ⟨hc, h⟩ ht).sums

/-! ### The canonical form of the table memories (20_memory.md R60) -/

/-- The canonical form of the wave, reduced and tier tables and of what SH holds of them. -/
structure TablesCanonical (s : State) : Prop where
  wf       : ∀ h : Half, Memory.wf tableAlloc (s.tables.wf.get h) = true
  rt       : ∀ h : Half, Memory.wf redLen (s.tables.rt.get h) = true
  tb       : ∀ (t : Tier) (h : Half), Memory.wf (samplesPerCycle t) ((s.tables.tb.get t).get h) = true
  shadowWf : s.flags.pend = true → Memory.wf tableAlloc s.shadow.wf = true
  shadowRt : s.flags.pend = true → Memory.wf redLen s.shadow.rt = true
  shadowTb : s.flags.pend = true → ∀ t : Tier, s.seq.fastMode = .fast t →
    Memory.wf (samplesPerCycle t) s.shadow.tb = true

/-- The waypoint memory is the one table memory beside them. -/
theorem memoryCanonical_iff (s : State) :
    MemoryCanonical s ↔ TablesCanonical s ∧ Memory.wf wpMax s.waypoints.cells = true := by
  constructor
  · intro h
    exact ⟨⟨fun k => h.tables (.wf k), fun k => h.tables (.rt k), fun t k => h.tables (.tb t k), h.shadowWf, h.shadowRt,
      h.shadowTb⟩, h.tables .wp⟩
  · rintro ⟨h, hwp⟩
    refine ⟨fun sp => ?_, h.shadowWf, h.shadowRt, h.shadowTb⟩
    cases sp with
    | wf k => exact h.wf k
    | rt k => exact h.rt k
    | tb t k => exact h.tb t k
    | wp => exact hwp

theorem tablesCanonical_congr (s t : State) (e : SameTables s t) (h : TablesCanonical s) : TablesCanonical t := by
  obtain ⟨hwf, hrt, htb, hswf, hsrt, hstb⟩ := h
  constructor <;> simpa only [e.tables, e.shadow, e.fastMode, e.pend]

theorem tablesCanonical_finishPending (s : State) (hp : s.flags.pend = true) (h : TablesCanonical s) :
    TablesCanonical (finishPending s) where
  wf k := by
    rw [finishPending_wf s hp, PerHalf.get_set]
    split
    · exact h.shadowWf hp
    · exact h.wf k
  rt k := by
    rw [finishPending_rt s hp, PerHalf.get_set]
    split
    · exact h.shadowRt hp
    · exact h.rt k
  tb t k := by
    rw [finishPending_tb_get s hp]
    split
    · rename_i hk
      exact h.shadowTb hp t hk.1
    · exact h.tb t k
  shadowWf hq := by simp at hq
  shadowRt hq := by simp at hq
  shadowTb hq := by simp at hq

theorem committedHalf_tb_canonical (s : State) (t : Tier) (h : Half) (ht : s.seq.fastMode = .fast t) :
    Memory.wf (samplesPerCycle t) (committedHalf s h).tb = true := by
  rw [committedHalf, ht]
  exact halfRecordOf_tb_canonical s t _ h

theorem tablesCanonical_phaseA (s : State) (h : TablesCanonical s) : TablesCanonical (phaseA s) := by
  have hA := phaseADone_phaseA s
  constructor
  case wf =>
    intro k
    rw [hA.wf, PerHalf.get_set]
    split
    · exact halfRecordOf_wf_canonical _ _ _ _
    · exact h.wf k
  case rt =>
    intro k
    rw [hA.rt, PerHalf.get_set]
    split
    · exact halfRecordOf_rt_canonical _ _ _ _
    · exact h.rt k
  case tb =>
    intro t k
    rw [hA.tb]
    split
    · rename_i hk
      exact committedHalf_tb_canonical s t _ hk.1
    · exact h.tb t k
  case shadowWf => intro _; rw [hA.shadow]; exact halfRecordOf_wf_canonical _ _ _ _
  case shadowRt => intro _; rw [hA.shadow]; exact halfRecordOf_rt_canonical _ _ _ _
  case shadowTb => intro _ t ht; rw [hA.shadow]; exact committedHalf_tb_canonical s t _ ht

theorem tablesCanonical_modeSwitch (s : State) (h : TablesCanonical s) : TablesCanonical (modeSwitch s) := by
  obtain ⟨hwf, hrt, htb, hswf, hsrt, hstb⟩ := h
  by_cases hn : shapeOf s.params = .noise
  · have hN := noiseStarted_modeSwitch s hn
    constructor
    case wf => simpa only [hN.tables]
    case rt => simpa only [hN.tables]
    case tb => simpa only [hN.tables]
    all_goals intro hp; simp [hN.pend] at hp
  · have hW := waveStarted_modeSwitch s hn
    constructor
    case wf => intro k; rw [hW.wf]; exact halfRecordOf_wf_canonical _ _ _ _
    case rt => intro k; rw [hW.rt]; exact halfRecordOf_rt_canonical _ _ _ _
    case tb =>
      intro t k
      rw [hW.tb]
      split
      · rename_i hk
        rw [startedHalf, hk]
        exact halfRecordOf_tb_canonical s t _ k
      · exact htb t k
    all_goals intro hp; simp [hW.pend] at hp

theorem keptByBlocks_tablesCanonical : KeptByBlocks TablesCanonical :=
  keptByBlocks_of_tables tablesCanonical_congr tablesCanonical_finishPending (fun s _ => tablesCanonical_phaseA s)
    (fun s _ => tablesCanonical_modeSwitch s)

/-! ### Properties of the waypoint memory -/

/-- A property of the waypoint memory that appending and clearing keep is kept by every block. -/
theorem keptByBlocks_of_waypoints {P : Waypoints → Prop}
    (happend : ∀ v s, s.waypoints.count.toNat + 1 ≤ wpMax → P s.waypoints →
      P (setWpCount (s.waypoints.count.toNat + 1) (writeWaypoint s.waypoints.count.toNat false v s)).waypoints)
    (hpair : ∀ v w s, s.waypoints.count.toNat + 2 ≤ wpMax → P s.waypoints →
      P (setWpCount (s.waypoints.count.toNat + 2) (writeWaypoint (s.waypoints.count.toNat + 1) false w
        (writeWaypoint s.waypoints.count.toNat true v s))).waypoints)
    (hclear : ∀ s, P s.waypoints → P (setWpCount 0 s).waypoints) : KeptByBlocks fun s => P s.waypoints where
  input _ _ h := h
  refused _ h := h
  response _ _ h := h
  finish s h := by rwa [finishPending_waypoints]
  write _ _ _ h := h
  prior _ _ h := h
  truncated _ h := h
  append v s hn h := happend v s hn h
  appendPair v w s hn h := hpair v w s hn h
  clear s h := hclear s h
  updated s _ h := by rwa [update_waypoints]
  restarted s _ h := by rwa [modeSwitch_waypoints]
  squared s h := by rwa [deriveSquare_waypoints]
  squareEnded _ h := h
  levelled s h := by rwa [syncLevel_waypoints]
  slow s _ h := by rwa [(tickFrame_slowSample s).waypoints]
  fast k s _ _ h := by rwa [(tickFrame_fastSample k s).waypoints]
  noise _ _ _ h := h
  usq s _ h := by rwa [(tickFrame_usqSample s).waypoints]
  dither _ _ _ h := h

theorem keptByBlocks_waypointsCanonical : KeptByBlocks fun s => Memory.wf wpMax s.waypoints.cells = true :=
  keptByBlocks_of_waypoints (P := fun w => Memory.wf wpMax w.cells = true)
    (fun _ _ hn h => Memory.wf_write _ _ _ _ (by omega) h)
    (fun _ _ _ hn h => Memory.wf_write _ _ _ _ (by omega) (Memory.wf_write _ _ _ _ (by omega) h)) (fun _ h => h)

/-- Settles O12: the derived halves and the waypoint writes are in canonical form. -/
theorem stepKeepsMemoryCanonical : Obligations.StepKeepsMemoryCanonical := by
  intro s t h ht
  rw [memoryCanonical_iff] at h ⊢
  exact ⟨keptByBlocks_tablesCanonical.step s t h.1 ht, keptByBlocks_waypointsCanonical.step s t h.2 ht⟩

/-- WP_COUNT is at most 4096, the entries below it are written, and no entry has a bit above bit 12 (20_memory.md R66). -/
structure EntriesValid (w : Waypoints) : Prop where
  count : w.count.toNat ≤ 4096
  valid : Memory.filled w.count.toNat w.cells
  bits  : ∀ p ∈ w.cells, p.2.toNat < 2 ^ 13

theorem waypointsValid_iff (s : State) : WaypointsValid s ↔ EntriesValid s.waypoints :=
  ⟨fun h => ⟨h.count, h.valid, h.bits⟩, fun h => ⟨h.count, h.valid, h.bits⟩⟩

/-- An entry as it is written has zeros in bits 15:13. -/
theorem entry_toNat_lt (isStep : Bool) (v : Sample) : ((0#3) ++ BitVec.ofBool isStep ++ v : Cell).toNat < 2 ^ 13 := by
  have hhead : (((0#3) ++ BitVec.ofBool isStep).toNat <<< 12) < 2 ^ 13 := by cases isStep <;> decide
  have hvalue : v.toNat < 2 ^ 13 := v.isLt.trans (by decide)
  rw [BitVec.toNat_append]
  exact Nat.or_lt_two_pow hhead hvalue

/-- A written entry keeps every entry in its form. -/
theorem bits_write (m : Memory) (i : Nat) (isStep : Bool) (v : Sample) (h : ∀ p ∈ m, p.2.toNat < 2 ^ 13) :
    ∀ p ∈ m.write i ((0#3) ++ BitVec.ofBool isStep ++ v), p.2.toNat < 2 ^ 13 := by
  intro p hp
  rcases Memory.mem_write m i _ p hp with rfl | hold
  · exact entry_toNat_lt isStep v
  · exact h p hold

theorem keptByBlocks_entriesValid : KeptByBlocks fun s => EntriesValid s.waypoints := by
  apply keptByBlocks_of_waypoints
  case happend =>
    intro v s hn ⟨_, hvalid, hbits⟩
    have hcount := setWpCount_count_toNat (s.waypoints.count.toNat + 1)
      (writeWaypoint s.waypoints.count.toNat false v s) hn
    exact ⟨by rw [hcount]; exact hn, by rw [hcount]; exact Memory.filled_write _ _ _ hvalid, bits_write _ _ _ _ hbits⟩
  case hpair =>
    intro v w s hn ⟨_, hvalid, hbits⟩
    have hcount := setWpCount_count_toNat (s.waypoints.count.toNat + 2)
      (writeWaypoint (s.waypoints.count.toNat + 1) false w (writeWaypoint s.waypoints.count.toNat true v s)) hn
    exact ⟨by rw [hcount]; exact hn,
      by rw [hcount]; exact Memory.filled_write _ _ _ (Memory.filled_write _ _ _ hvalid),
      bits_write _ _ _ _ (bits_write _ _ _ _ hbits)⟩
  case hclear =>
    intro s ⟨_, _, hbits⟩
    exact ⟨by simp, fun i hi => by simp at hi, hbits⟩

/-- Settles O20: an entry is appended at WP_COUNT, and its word has zeros above bit 12. -/
theorem stepKeepsWaypointsValid : Obligations.StepKeepsWaypointsValid := by
  intro s t h ht
  rw [waypointsValid_iff] at h ⊢
  exact keptByBlocks_entriesValid.step s t h ht

end Sys2Proof.Machine
end

section
/-! Invariants of the registers, the enables, the sequencer and the noise filters (10_state.md R29, R33, R34, R37,
47_noise.md R332), and reset, which meets them all. -/

namespace Sys2Proof.Machine

/-! ### The parameter registers stay in range (10_state.md R29) -/

/-- The registers are in range under a valid configuration, whose limits the ranges need. -/
structure ValidRegisters (s : State) : Prop where
  valid : s.cfg.valid = true
  range : RegistersInRange s

/-- The ranges depend on the registers and the configuration alone. -/
theorem validRegisters_congr (s t : State) (hp : t.params = s.params) (hc : t.cfg = s.cfg) (h : ValidRegisters s) :
    ValidRegisters t := by
  obtain ⟨hv, hr⟩ := h
  refine ⟨by rwa [hc], fun r => ?_⟩
  rw [hp, hc]
  exact hr r

theorem validRegisters_of_tickFrame (s t : State) (hT : TickFrame s t) (h : ValidRegisters s) : ValidRegisters t :=
  validRegisters_congr s t hT.params hT.cfg h

theorem keptByBlocks_validRegisters : KeptByBlocks ValidRegisters where
  input _ s h := validRegisters_congr s _ rfl rfl h
  refused s h := validRegisters_congr s _ rfl rfl h
  response _ s h := validRegisters_congr s _ rfl rfl h
  finish s h := validRegisters_congr s _ (finishPending_params s) (finishPending_cfg s) h
  write r v s h := ⟨h.valid, registersInRange_writeReg s h.valid r v h.range⟩
  prior _ s h := validRegisters_congr s _ rfl rfl h
  truncated s h := validRegisters_congr s _ rfl rfl h
  append _ s _ h := validRegisters_congr s _ rfl rfl h
  appendPair _ _ s _ h := validRegisters_congr s _ rfl rfl h
  clear s h := validRegisters_congr s _ rfl rfl h
  updated s _ h := validRegisters_congr s _ (update_params s) (update_cfg s) h
  restarted s _ h := validRegisters_congr s _ (modeSwitch_params _) (modeSwitch_cfg _) h
  squared s h := validRegisters_congr s _ (deriveSquare_params s) (deriveSquare_cfg s) h
  squareEnded s h := validRegisters_congr s _ rfl rfl h
  levelled s h := validRegisters_congr s _ (syncLevel_params s) (syncLevel_cfg s) h
  slow s _ h := validRegisters_of_tickFrame s _ (tickFrame_slowSample s) h
  fast k s _ _ h := validRegisters_of_tickFrame s _ (tickFrame_fastSample k s) h
  noise rnd s _ h := validRegisters_of_tickFrame s _ (tickFrame_noiseTick rnd s) h
  usq s _ h := validRegisters_of_tickFrame s _ (tickFrame_usqSample s) h
  dither s _ _ h := validRegisters_of_tickFrame s _ (tickFrame_ditherPoint s) h

/-- Settles O13: the one write of a register clamps it. -/
theorem stepKeepsRegistersInRange : Obligations.StepKeepsRegistersInRange := fun s t hc h ht =>
  (keptByBlocks_validRegisters.step s t ⟨hc, h⟩ ht).range

/-! ### The enables exclude each other (10_state.md R37) -/

/-- The exclusions depend on the five enables, RUN and FASTMODE alone. -/
theorem enablesExclusive_congr (s t : State) (hslow : t.flags.enSlow = s.flags.enSlow)
    (hfast : t.flags.enFast = s.flags.enFast) (hnoise : t.flags.enNoise = s.flags.enNoise)
    (husq : t.flags.enUsq = s.flags.enUsq) (hpwm : t.flags.enPwm = s.flags.enPwm) (hrun : t.flags.run = s.flags.run)
    (hfm : t.seq.fastMode = s.seq.fastMode) (h : EnablesExclusive s) : EnablesExclusive t := by
  obtain ⟨h1, h2, h3, h4, h5, h6, h7⟩ := h
  constructor <;> simpa only [hslow, hfast, hnoise, husq, hpwm, hrun, hfm]

theorem enablesExclusive_of_tickFrame (s t : State) (hT : TickFrame s t) (h : EnablesExclusive s) : EnablesExclusive t := by
  have hf := hT.flags
  exact enablesExclusive_congr s t (by rw [hf]) (by rw [hf]) (by rw [hf]) (by rw [hf]) (by rw [hf]) (by rw [hf])
    hT.fastMode h

/-- `DeriveSquare` chooses the independent square wave anew and keeps the analog path (46_unsynced_square.md R312). -/
theorem enablesExclusive_deriveSquare (s : State) (h : EnablesExclusive s) : EnablesExclusive (deriveSquare s) := by
  obtain ⟨hone, hstopped⟩ := deriveSquare_enables s
  constructor
  case usqPwm => exact hone
  case needRun =>
    intro hr
    rw [deriveSquare_flags_run] at hr
    obtain ⟨hs, hf, hn, -, -⟩ := h.needRun hr
    simp [hs, hf, hn, hstopped hr]
  case slowFast => simpa using h.slowFast
  case slowNoise => simpa using h.slowNoise
  case fastNoise => simpa using h.fastNoise
  case slowMode => simpa using h.slowMode
  case fastTier => simpa using h.fastTier

theorem enablesExclusive_squareOff (s : State) (h : EnablesExclusive s) : EnablesExclusive (squareOff s) := by
  constructor
  case usqPwm => simp
  case needRun =>
    intro hr
    obtain ⟨hs, hf, hn, -, -⟩ := h.needRun hr
    exact ⟨hs, hf, hn, rfl, rfl⟩
  case slowFast => exact h.slowFast
  case slowNoise => exact h.slowNoise
  case fastNoise => exact h.fastNoise
  case slowMode => exact h.slowMode
  case fastTier => exact h.fastTier

/-- On either branch the mode switch ends with `DeriveSquare`. -/
theorem exists_modeSwitch_eq_deriveSquare (s : State) : ∃ u, modeSwitch s = deriveSquare u := by
  by_cases hn : shapeOf s.params = .noise
  · exact ⟨_, modeSwitch_of_noise s hn⟩
  · exact ⟨_, modeSwitch_of_wave s hn⟩

/-- The mode switch of a running machine enables one path and at most one independent square wave, whatever was enabled
before (40_clock_and_tier.md R130). -/
theorem enablesExclusive_modeSwitch (s : State) (hr : s.flags.run = true) : EnablesExclusive (modeSwitch s) := by
  have hone : ¬ ((modeSwitch s).flags.enUsq = true ∧ (modeSwitch s).flags.enPwm = true) := by
    obtain ⟨u, hu⟩ := exists_modeSwitch_eq_deriveSquare s
    rw [hu]
    exact (deriveSquare_enables u).1
  by_cases hn : shapeOf s.params = .noise
  · have hN := noiseStarted_modeSwitch s hn
    constructor <;> simp [hN.enSlow, hN.enFast, hr]
    simpa using hone
  · have hW := waveStarted_modeSwitch s hn
    constructor <;> simp [hW.enSlow, hW.enFast, hW.enNoise, hW.fastMode, hr]
    simpa using hone

theorem keptByBlocks_enablesExclusive : KeptByBlocks EnablesExclusive where
  input _ s h := enablesExclusive_congr s _ rfl rfl rfl rfl rfl rfl rfl h
  refused s h := enablesExclusive_congr s _ rfl rfl rfl rfl rfl rfl rfl h
  response _ s h := enablesExclusive_congr s _ rfl rfl rfl rfl rfl rfl rfl h
  finish s h := enablesExclusive_congr s _ (by simp) (by simp) (by simp) (by simp) (by simp) (by simp) (by simp) h
  write _ _ s h := enablesExclusive_congr s _ rfl rfl rfl rfl rfl rfl rfl h
  prior _ s h := enablesExclusive_congr s _ rfl rfl rfl rfl rfl rfl rfl h
  truncated s h := enablesExclusive_congr s _ rfl rfl rfl rfl rfl rfl rfl h
  append _ s _ h := enablesExclusive_congr s _ rfl rfl rfl rfl rfl rfl rfl h
  appendPair _ _ s _ h := enablesExclusive_congr s _ rfl rfl rfl rfl rfl rfl rfl h
  clear s h := enablesExclusive_congr s _ rfl rfl rfl rfl rfl rfl rfl h
  updated s _ h := kept_update s h (enablesExclusive_congr s _ rfl rfl rfl rfl rfl rfl rfl h)
    (enablesExclusive_congr s _ rfl rfl rfl rfl rfl rfl rfl h) (enablesExclusive_modeSwitch s)
  restarted _ _ _ := enablesExclusive_modeSwitch _ rfl
  squared s h := enablesExclusive_deriveSquare s h
  squareEnded s h := enablesExclusive_squareOff s h
  levelled s h := enablesExclusive_congr s _ (by simp) (by simp) (by simp) (by simp) (by simp) (by simp) (by simp) h
  slow s _ h := enablesExclusive_of_tickFrame s _ (tickFrame_slowSample s) h
  fast k s _ _ h := enablesExclusive_of_tickFrame s _ (tickFrame_fastSample k s) h
  noise rnd s _ h := enablesExclusive_of_tickFrame s _ (tickFrame_noiseTick rnd s) h
  usq s _ h := enablesExclusive_of_tickFrame s _ (tickFrame_usqSample s) h
  dither s _ _ h := enablesExclusive_of_tickFrame s _ (tickFrame_ditherPoint s) h

/-- Settles O14: only the mode switch enables a path, after disabling all, and only `DeriveSquare` a square wave. -/
theorem stepKeepsEnablesExclusive : Obligations.StepKeepsEnablesExclusive :=
  keptByBlocks_enablesExclusive.step

/-! ### The noise filters stay in 32 bits (47_noise.md R332, R333) -/

/-- The filters and the two coefficients that step them, under a valid configuration, whose maps bound the coefficients. -/
structure ValidNoise (s : State) : Prop where
  valid : s.cfg.valid = true
  noise : NoiseBounded s

theorem validNoise_congr (s t : State) (hn : t.noise = s.noise) (hc : t.cfg = s.cfg) (h : ValidNoise s) : ValidNoise t := by
  obtain ⟨hv, hfast, hslow, havg, hcf, hlfc⟩ := h
  refine ⟨by rwa [hc], ?_⟩
  constructor <;> rwa [hn]

/-- A valid colour map keeps its bound at every colour (R333). -/
theorem pwl_le_of_valid (hi : Int) (m : ColorMap) (h0 : 0 ≤ hi) (hm : ColorMap.valid hi m = true) (c : Nat) :
    0 ≤ pwl m c ∧ pwl m c ≤ hi := by
  simp only [ColorMap.valid, Bool.and_eq_true, decide_eq_true_eq, beq_iff_eq] at hm
  obtain ⟨⟨⟨-, hhead⟩, hrises⟩, hall⟩ := hm
  refine pwl_between hi m h0 hrises (by simpa using hall) c fun p hp => ?_
  rw [hp, Option.map_some, Option.some.injEq] at hhead
  omega

/-- A coefficient up to 32767 fits its register. -/
theorem toNat_ofInt_16_le (v : Int) (hi : Nat) (h0 : 0 ≤ v) (h1 : v ≤ hi) (hhi : hi < 2 ^ 16) :
    (BitVec.ofInt 16 v).toNat ≤ hi := by
  rw [BitVec.toNat_ofInt]
  omega

theorem Cfg.valid_maps (c : Cfg) (h : c.valid = true) :
    ColorMap.valid 10000 c.mapCf = true ∧ ColorMap.valid 100 c.mapLfc = true := by
  simp only [Cfg.valid, Cfg.validMaps, Bool.and_eq_true] at h
  exact ⟨h.2.1.1.1.1, h.2.1.1.1.2⟩

theorem noiseBounded_noiseCoeffs (s : State) (hc : s.cfg.valid = true) (h : NoiseBounded s) :
    NoiseBounded (noiseCoeffs s) := by
  obtain ⟨hcf, hlfc⟩ := Cfg.valid_maps s.cfg hc
  obtain ⟨hcf0, hcf1⟩ := pwl_le_of_valid _ _ (by decide) hcf s.params.nColor.toNat
  obtain ⟨hlfc0, hlfc1⟩ := pwl_le_of_valid _ _ (by decide) hlfc s.params.nColor.toNat
  exact ⟨h.fast, h.slow, h.avg, toNat_ofInt_16_le _ _ hcf0 hcf1 (by decide),
    toNat_ofInt_16_le _ _ hlfc0 hlfc1 (by decide)⟩

/-- One tick steps the average filter twice and the slow one on every fourth tick (R332). -/
theorem noiseBounded_noiseTick (rnd : BitVec 32) (s : State) (h : NoiseBounded s) : NoiseBounded (noiseTick rnd s) := by
  have hnew := noiseSample_inRange rnd
  have havg := filterStep_inRange _ _ _ _ h.cf h.avg hnew
  refine ⟨filterStep_inRange _ _ _ _ (by decide) h.fast hnew, ?_, filterStep_inRange _ _ _ _ h.cf havg hnew, h.cf, h.lfc⟩
  simp only [noiseTick, writeDac_noise, filterNoise]
  split
  · exact filterStep_inRange _ _ _ _ h.lfc h.slow hnew
  · exact h.slow

theorem validNoise_noiseCoeffs (s : State) (h : ValidNoise s) : ValidNoise (noiseCoeffs s) :=
  ⟨h.valid, noiseBounded_noiseCoeffs s h.valid h.noise⟩

theorem validNoise_modeSwitch (s : State) (h : ValidNoise s) : ValidNoise (modeSwitch s) :=
  validNoise_congr (noiseCoeffs s) _ (modeSwitch_noise s) (modeSwitch_cfg s) (validNoise_noiseCoeffs s h)

@[simp] theorem slowSample_noise (s : State) : (slowSample s).noise = s.noise := by
  rcases Nat.lt_or_ge (slowSum s) (2 ^ 32) with hc | hc
  · rw [slowSample_of_no_carry s hc]
    rfl
  · rw [slowSample_of_carry s hc]
    by_cases hstays : s.flags.extreme = true ∧ s.seq.half = activeHalf s
    · rw [slowBoundary_of_stays _ s hstays.1 hstays.2]
    · rw [slowBoundary_of_flips _ s (by simpa [imp_iff_not_or] using hstays)]

@[simp] theorem fastSample_noise (k : Tier) (s : State) : (fastSample k s).noise = s.noise := by
  rcases Nat.lt_or_ge (s.seq.seqIdx.toNat + 1) s.seq.seqLen.toNat with hin | hlast
  · rw [fastSample_of_inside k s hin]
    rfl
  · rw [fastSample_of_last k s hlast]
    rcases Nat.eq_zero_or_pos (dutyCount s s.seq.half.other k) with hempty | hother
    · rw [endHalf_of_sameHalf k _ s hempty]
    · rw [endHalf_of_otherHalf k _ s hother]

@[simp] theorem usqSample_noise (s : State) : (usqSample s).noise = s.noise := by
  rcases Nat.lt_or_ge (s.usq.acc.toNat + (s.usq.inc.get s.usq.half).toNat) (2 ^ 32) with hc | hc
  · rw [usqSample_of_no_carry s hc]
    rfl
  · rw [usqSample_of_carry s hc]
    cases hext : s.usq.ext with
    | true => rw [usqBoundary_of_extreme (usqAdvance s) hext]; rfl
    | false => rw [usqBoundary_of_not_extreme (usqAdvance s) hext]; rfl

theorem keptByBlocks_validNoise : KeptByBlocks ValidNoise where
  input _ s h := validNoise_congr s _ rfl rfl h
  refused s h := validNoise_congr s _ rfl rfl h
  response _ s h := validNoise_congr s _ rfl rfl h
  finish s h := validNoise_congr s _ (finishPending_noise s) (finishPending_cfg s) h
  write _ _ s h := validNoise_congr s _ rfl rfl h
  prior _ s h := validNoise_congr s _ rfl rfl h
  truncated s h := validNoise_congr s _ rfl rfl h
  append _ s _ h := validNoise_congr s _ rfl rfl h
  appendPair _ _ s _ h := validNoise_congr s _ rfl rfl h
  clear s h := validNoise_congr s _ rfl rfl h
  updated s _ h := kept_update s h (validNoise_noiseCoeffs s h) (validNoise_congr s _ rfl rfl h)
    fun _ => validNoise_modeSwitch s h
  restarted s _ h := validNoise_modeSwitch _ (validNoise_congr s _ rfl rfl h)
  squared s h := validNoise_congr s _ (deriveSquare_noise s) (deriveSquare_cfg s) h
  squareEnded s h := validNoise_congr s _ rfl rfl h
  levelled s h := validNoise_congr s _ (syncLevel_noise s) (syncLevel_cfg s) h
  slow s _ h := validNoise_congr s _ (slowSample_noise s) (tickFrame_slowSample s).cfg h
  fast k s _ _ h := validNoise_congr s _ (fastSample_noise k s) (tickFrame_fastSample k s).cfg h
  noise rnd s _ h := ⟨h.valid, noiseBounded_noiseTick rnd s h.noise⟩
  usq s _ h := validNoise_congr s _ (usqSample_noise s) (tickFrame_usqSample s).cfg h
  dither s _ _ h := validNoise_congr s _ rfl rfl h

/-- Settles O19: a filter step lies between the accumulator and the sample, and the colour maps bound the factors. -/
theorem stepKeepsNoiseBounded : Obligations.StepKeepsNoiseBounded := fun s t hc h ht =>
  (keptByBlocks_validNoise.step s t ⟨hc, h⟩ ht).noise

/-! ### The sequencer stays in range (10_state.md R33, R34, 43_downsampler_and_tier_buffers.md R228) -/

/-- The part of `SequencerInRange` about the tables and SH, under a valid configuration. -/
structure ValidCounts (s : State) : Prop where
  valid  : s.cfg.valid = true
  counts : ∀ (h : Half) (t : Tier), dutyCount s h t ≤ samplesPerCycle t
  shadow : ∀ t : Tier, (s.shadow.duty.get t).toNat ≤ samplesPerCycle t

theorem validCounts_congr (s t : State) (e : SameTables s t) (h : ValidCounts s) : ValidCounts t := by
  obtain ⟨hv, hc, hs⟩ := h
  refine ⟨by rwa [e.cfg], ?_, ?_⟩
  · rwa [dutyCount_congr s t e.tables]
  · rwa [e.shadow]

theorem validCounts_finishPending (s : State) (hp : s.flags.pend = true) (h : ValidCounts s) :
    ValidCounts (finishPending s) := by
  refine ⟨by simpa using h.valid, fun k t => ?_, by simpa using h.shadow⟩
  rw [dutyCount_finishPending s hp]
  split
  · exact h.shadow t
  · exact h.counts k t

theorem validCounts_phaseA (s : State) (h : ValidCounts s) : ValidCounts (phaseA s) := by
  refine ⟨h.valid, fun k t => ?_, fun t => ?_⟩
  · rw [dutyCount_phaseA s h.valid]
    split
    · exact countFor_le s.cfg h.valid _ k t
    · exact h.counts k t
  · rw [(phaseADone_phaseA s).shadow, committedHalf_duty_toNat s h.valid]
    exact countFor_le s.cfg h.valid _ _ t

theorem validCounts_modeSwitch (s : State) (h : ValidCounts s) : ValidCounts (modeSwitch s) := by
  refine ⟨by simpa using h.valid, fun k t => ?_, by simpa using h.shadow⟩
  by_cases hn : shapeOf s.params = .noise
  · rw [dutyCount_congr s _ (noiseStarted_modeSwitch s hn).tables]
    exact h.counts k t
  · rw [dutyCount_waveStarted s _ h.valid (waveStarted_modeSwitch s hn)]
    exact countFor_le s.cfg h.valid _ k t

theorem keptByBlocks_validCounts : KeptByBlocks ValidCounts :=
  keptByBlocks_of_tables validCounts_congr validCounts_finishPending (fun s _ => validCounts_phaseA s)
    (fun s _ => validCounts_modeSwitch s)

/-- The numbers of the dither are thousandths, in force, in SH and as remainders (R33). -/
structure DitherInRange (s : State) : Prop where
  frac   : ∀ h : Half, s.seq.incFrac.get h < 1000
  shFrac : s.shadow.incFrac < 1000
  dacc   : ∀ h : Half, s.seq.dacc.get h < 1000

theorem ditherInRange_congr (s t : State) (hfrac : t.seq.incFrac = s.seq.incFrac) (hdacc : t.seq.dacc = s.seq.dacc)
    (hshadow : t.shadow = s.shadow) (h : DitherInRange s) : DitherInRange t := by
  obtain ⟨h1, h2, h3⟩ := h
  constructor <;> simpa only [hfrac, hdacc, hshadow]

/-- The position on the fast path lies in the latched length, and that in the tier's cycle (R34). -/
structure PositionInRange (s : State) : Prop where
  position : s.flags.enFast = true → s.seq.seqIdx.toNat < s.seq.seqLen.toNat
  length   : s.flags.enFast = true → ∀ t : Tier, s.seq.fastMode = .fast t → s.seq.seqLen.toNat ≤ samplesPerCycle t

theorem positionInRange_congr (s t : State) (hidx : t.seq.seqIdx = s.seq.seqIdx) (hlen : t.seq.seqLen = s.seq.seqLen)
    (hfm : t.seq.fastMode = s.seq.fastMode) (hfast : t.flags.enFast = s.flags.enFast) (h : PositionInRange s) :
    PositionInRange t := by
  obtain ⟨h1, h2⟩ := h
  constructor <;> simpa only [hidx, hlen, hfm, hfast]

theorem sequencerInRange_iff (s : State) (hc : s.cfg.valid = true) :
    SequencerInRange s ↔ ValidCounts s ∧ DitherInRange s ∧ PositionInRange s :=
  ⟨fun h => ⟨⟨hc, h.counts, h.shadow⟩, ⟨h.frac, h.shFrac, h.dacc⟩, h.position, h.length⟩,
    fun ⟨hC, hD, hP⟩ => ⟨hC.counts, hC.shadow, hP.position, hP.length, hD.frac, hD.shFrac, hD.dacc⟩⟩

/-- The slow path moves HALF and WaveBit alone in the sequencing state. -/
theorem slowSample_seq (s : State) : ∃ h v, (slowSample s).seq = { s.seq with half := h, waveBit := v } := by
  rcases Nat.lt_or_ge (slowSum s) (2 ^ 32) with hc | hc
  · rw [slowSample_of_no_carry s hc]
    exact ⟨s.seq.half, _, rfl⟩
  · rw [slowSample_of_carry s hc]
    by_cases hstays : s.flags.extreme = true ∧ s.seq.half = activeHalf s
    · rw [slowBoundary_of_stays _ s hstays.1 hstays.2]
      exact ⟨s.seq.half, _, rfl⟩
    · rw [slowBoundary_of_flips _ s (by simpa [imp_iff_not_or] using hstays)]
      exact ⟨_, _, rfl⟩

/-- The fast path moves HALF, SEQ_IDX and SEQ_LEN alone in the sequencing state. -/
theorem fastSample_seq (k : Tier) (s : State) :
    ∃ h i l, (fastSample k s).seq = { s.seq with half := h, seqIdx := i, seqLen := l } := by
  rcases Nat.lt_or_ge (s.seq.seqIdx.toNat + 1) s.seq.seqLen.toNat with hin | hlast
  · rw [fastSample_of_inside k s hin]
    exact ⟨s.seq.half, _, s.seq.seqLen, rfl⟩
  · rw [fastSample_of_last k s hlast]
    rcases Nat.eq_zero_or_pos (dutyCount s s.seq.half.other k) with hempty | hother
    · rw [endHalf_of_sameHalf k _ s hempty]
      exact ⟨s.seq.half, _, _, rfl⟩
    · rw [endHalf_of_otherHalf k _ s hother]
      exact ⟨_, _, _, rfl⟩

@[simp] theorem usqSample_seq (s : State) : (usqSample s).seq = s.seq := by
  rcases Nat.lt_or_ge (s.usq.acc.toNat + (s.usq.inc.get s.usq.half).toNat) (2 ^ 32) with hc | hc
  · rw [usqSample_of_no_carry s hc]
    rfl
  · rw [usqSample_of_carry s hc]
    cases hext : s.usq.ext with
    | true => rw [usqBoundary_of_extreme (usqAdvance s) hext]; rfl
    | false => rw [usqBoundary_of_not_extreme (usqAdvance s) hext]; rfl

theorem ditherInRange_finishPending (s : State) (h : DitherInRange s) : DitherInRange (finishPending s) := by
  cases hp : s.flags.pend with
  | false => rwa [finishPending_of_idle s hp]
  | true =>
    refine ⟨fun k => ?_, by simpa using h.shFrac, by simpa using h.dacc⟩
    rw [finishPending_seq s hp, commitSteps, PerHalf.get_set]
    split
    · exact h.shFrac
    · exact h.frac k

theorem ditherInRange_phaseA (s : State) (h : DitherInRange s) : DitherInRange (phaseA s) := by
  have hA := phaseADone_phaseA s
  refine ⟨fun k => ?_, ?_, h.dacc⟩
  · rw [hA.seq, commitSteps, PerHalf.get_set]
    split
    · exact halfRecordOf_incFrac_lt _ _ _ _
    · exact h.frac k
  · rw [hA.shadow]
    exact halfRecordOf_incFrac_lt _ _ _ _

theorem ditherInRange_modeSwitch (s : State) (h : DitherInRange s) : DitherInRange (modeSwitch s) := by
  by_cases hn : shapeOf s.params = .noise
  · have hN := noiseStarted_modeSwitch s hn
    exact ditherInRange_congr s _ (by rw [hN.seq]) (by rw [hN.seq]) (by simp) h
  · have hW := waveStarted_modeSwitch s hn
    refine ⟨fun k => ?_, by simpa using h.shFrac, fun k => ?_⟩
    · rw [hW.incFrac]
      exact halfRecordOf_incFrac_lt _ _ _ _
    · rw [hW.dacc]
      cases k <;> decide

theorem ditherInRange_slowSample (s : State) (h : DitherInRange s) : DitherInRange (slowSample s) := by
  obtain ⟨k, v, e⟩ := slowSample_seq s
  exact ditherInRange_congr s _ (by rw [e]) (by rw [e]) (tickFrame_slowSample s).shadow h

theorem ditherInRange_fastSample (k : Tier) (s : State) (h : DitherInRange s) : DitherInRange (fastSample k s) := by
  obtain ⟨j, i, l, e⟩ := fastSample_seq k s
  exact ditherInRange_congr s _ (by rw [e]) (by rw [e]) (tickFrame_fastSample k s).shadow h

/-- Two thousandths wrap at most once (44_phase_accumulator.md R252). -/
theorem ditherInRange_ditherPoint (s : State) (h : DitherInRange s) : DitherInRange (ditherPoint s) := by
  refine ⟨h.frac, h.shFrac, fun k => ?_⟩
  have hdacc := h.dacc k
  have hfrac := h.frac k
  rw [ditherPoint_dacc_get s k (by rw [ditherSum]; omega)]
  omega

theorem keptByBlocks_ditherInRange : KeptByBlocks DitherInRange where
  input _ s h := ditherInRange_congr s _ rfl rfl rfl h
  refused s h := ditherInRange_congr s _ rfl rfl rfl h
  response _ s h := ditherInRange_congr s _ rfl rfl rfl h
  finish s h := ditherInRange_finishPending s h
  write _ _ s h := ditherInRange_congr s _ rfl rfl rfl h
  prior _ s h := ditherInRange_congr s _ rfl rfl rfl h
  truncated s h := ditherInRange_congr s _ rfl rfl rfl h
  append _ s _ h := ditherInRange_congr s _ rfl rfl rfl h
  appendPair _ _ s _ h := ditherInRange_congr s _ rfl rfl rfl h
  clear s h := ditherInRange_congr s _ rfl rfl rfl h
  updated s _ h := kept_update s h (ditherInRange_congr s _ rfl rfl rfl h) (ditherInRange_phaseA s h)
    fun _ => ditherInRange_modeSwitch s h
  restarted s _ h := ditherInRange_modeSwitch _ (ditherInRange_congr s _ rfl rfl rfl h)
  squared s h := ditherInRange_congr s _ (by simp) (by simp) (by simp) h
  squareEnded s h := ditherInRange_congr s _ rfl rfl rfl h
  levelled s h := ditherInRange_congr s _ (by simp) (by simp) (by simp) h
  slow s _ h := ditherInRange_slowSample s h
  fast k s _ _ h := ditherInRange_fastSample k s h
  noise _ s _ h := ditherInRange_congr s _ rfl rfl rfl h
  usq s _ h := ditherInRange_congr s _ (by simp) (by simp) (tickFrame_usqSample s).shadow h
  dither s _ _ h := ditherInRange_ditherPoint s h

/-- A latched length is a count, or 1 where the count is 0, and fits the register. -/
theorem latched_toNat (n : Nat) (t : Tier) (h : n ≤ samplesPerCycle t) :
    (BitVec.ofNat 8 (max n 1)).toNat = max n 1 := by
  have hs := samplesPerCycle_le t
  rw [BitVec.toNat_ofNat, Nat.mod_eq_of_lt (by omega)]

/-- A position of 0 in a latched length is in range. -/
theorem positionInRange_of_latched (s : State) (k : Tier) (n : Nat) (hn : n ≤ samplesPerCycle k)
    (hfm : s.seq.fastMode = .fast k) (hidx : s.seq.seqIdx = 0) (hlen : s.seq.seqLen = BitVec.ofNat 8 (max n 1)) :
    PositionInRange s := by
  have hpos := samplesPerCycle_pos k
  refine ⟨fun _ => ?_, fun _ t ht => ?_⟩
  · rw [hidx, hlen, latched_toNat n k hn]
    exact Nat.lt_of_lt_of_le Nat.zero_lt_one (Nat.le_max_right n 1)
  · obtain rfl : k = t := FastMode.fast.inj (hfm.symm.trans ht)
    rw [hlen, latched_toNat n k hn]
    omega

theorem positionInRange_modeSwitch (s : State) (hC : ValidCounts s) : PositionInRange (modeSwitch s) := by
  by_cases hn : shapeOf s.params = .noise
  · have hN := noiseStarted_modeSwitch s hn
    constructor <;> simp [hN.enFast]
  · have hW := waveStarted_modeSwitch s hn
    cases hk : selectTier s with
    | slow =>
      have hoff : (modeSwitch s).flags.enFast = false := by simpa [hk] using hW.enFast
      constructor <;> simp [hoff]
    | fast k =>
      exact positionInRange_of_latched _ k _ ((validCounts_modeSwitch s hC).counts _ k)
        (hW.fastMode.trans hk) hW.seqIdx (hW.seqLen k hk)

theorem positionInRange_fastSample (k : Tier) (s : State) (hk : s.seq.fastMode = .fast k)
    (hC : ValidCounts s) (hP : PositionInRange s) :
    PositionInRange (fastSample k s) := by
  have hfm := (tickFrame_fastSample k s).fastMode.trans hk
  rcases Nat.lt_or_ge (s.seq.seqIdx.toNat + 1) s.seq.seqLen.toNat with hin | hlast
  · have hnext : (s.seq.seqIdx + 1).toNat = s.seq.seqIdx.toNat + 1 := by
      have := s.seq.seqLen.isLt
      rw [BitVec.toNat_add]
      exact Nat.mod_eq_of_lt (by simp; omega)
    rw [fastSample_of_inside k s hin]
    exact ⟨fun _ => hnext.trans_lt hin, hP.length⟩
  · rw [fastSample_of_last k s hlast] at hfm ⊢
    rcases Nat.eq_zero_or_pos (dutyCount s s.seq.half.other k) with hempty | hother
    · rw [endHalf_of_sameHalf k _ s hempty] at hfm ⊢
      exact positionInRange_of_latched _ k _ (hC.counts _ k) hfm rfl rfl
    · rw [endHalf_of_otherHalf k _ s hother] at hfm ⊢
      exact positionInRange_of_latched _ k _ (hC.counts _ k) hfm rfl (by rw [Nat.max_eq_left hother])

/-- The position needs the counts, from which a half's length is latched. -/
structure ValidPosition (s : State) : Prop where
  counts   : ValidCounts s
  position : PositionInRange s

/-- The position stays where HALF, WaveBit or another unit moves. -/
theorem keptByBlocks_validPosition : KeptByBlocks ValidPosition where
  input ws s h := ⟨keptByBlocks_validCounts.input ws s h.counts, positionInRange_congr s _ rfl rfl rfl rfl h.position⟩
  refused s h := ⟨keptByBlocks_validCounts.refused s h.counts, positionInRange_congr s _ rfl rfl rfl rfl h.position⟩
  response e s h :=
    ⟨keptByBlocks_validCounts.response e s h.counts, positionInRange_congr s _ rfl rfl rfl rfl h.position⟩
  finish s h := ⟨keptByBlocks_validCounts.finish s h.counts,
    positionInRange_congr s _ (by simp) (by simp) (by simp) (by simp) h.position⟩
  write r v s h := ⟨keptByBlocks_validCounts.write r v s h.counts, positionInRange_congr s _ rfl rfl rfl rfl h.position⟩
  prior b s h := ⟨keptByBlocks_validCounts.prior b s h.counts, positionInRange_congr s _ rfl rfl rfl rfl h.position⟩
  truncated s h := ⟨keptByBlocks_validCounts.truncated s h.counts, positionInRange_congr s _ rfl rfl rfl rfl h.position⟩
  append v s hn h :=
    ⟨keptByBlocks_validCounts.append v s hn h.counts, positionInRange_congr s _ rfl rfl rfl rfl h.position⟩
  appendPair v w s hn h :=
    ⟨keptByBlocks_validCounts.appendPair v w s hn h.counts, positionInRange_congr s _ rfl rfl rfl rfl h.position⟩
  clear s h := ⟨keptByBlocks_validCounts.clear s h.counts, positionInRange_congr s _ rfl rfl rfl rfl h.position⟩
  updated s hp h := ⟨keptByBlocks_validCounts.updated s hp h.counts,
    kept_update s h.position (positionInRange_congr s _ rfl rfl rfl rfl h.position)
      (positionInRange_congr s _ rfl rfl rfl rfl h.position) fun _ => positionInRange_modeSwitch s h.counts⟩
  restarted s hp h := ⟨keptByBlocks_validCounts.restarted s hp h.counts,
    positionInRange_modeSwitch _ (validCounts_congr s _ ⟨rfl, rfl, rfl, rfl, rfl, rfl, rfl, rfl⟩ h.counts)⟩
  squared s h := ⟨keptByBlocks_validCounts.squared s h.counts,
    positionInRange_congr s _ (by simp) (by simp) (by simp) (by simp) h.position⟩
  squareEnded s h :=
    ⟨keptByBlocks_validCounts.squareEnded s h.counts, positionInRange_congr s _ rfl rfl rfl rfl h.position⟩
  levelled s h := ⟨keptByBlocks_validCounts.levelled s h.counts,
    positionInRange_congr s _ (by simp) (by simp) (by simp) (by simp) h.position⟩
  slow s he h := by
    obtain ⟨k, v, e⟩ := slowSample_seq s
    exact ⟨keptByBlocks_validCounts.slow s he h.counts,
      positionInRange_congr s _ (by rw [e]) (by rw [e]) (by rw [e]) (by simp) h.position⟩
  fast k s he hk h :=
    ⟨keptByBlocks_validCounts.fast k s he hk h.counts, positionInRange_fastSample k s hk h.counts h.position⟩
  noise rnd s he h :=
    ⟨keptByBlocks_validCounts.noise rnd s he h.counts, positionInRange_congr s _ rfl rfl rfl rfl h.position⟩
  usq s he h := ⟨keptByBlocks_validCounts.usq s he h.counts,
    positionInRange_congr s _ (by simp) (by simp) (by simp) (by simp) h.position⟩
  dither s he hd h :=
    ⟨keptByBlocks_validCounts.dither s he hd h.counts, positionInRange_congr s _ rfl rfl rfl rfl h.position⟩

/-- Settles O18: the counts, the thousandths and, on the counts, the position. -/
theorem stepKeepsSequencerInRange : Obligations.StepKeepsSequencerInRange := by
  intro s t hc h ht
  obtain ⟨hC, hD, hP⟩ := (sequencerInRange_iff s hc).mp h
  obtain ⟨hC', hP'⟩ := keptByBlocks_validPosition.step s t ⟨hC, hP⟩ ht
  exact (sequencerInRange_iff t hC'.valid).mpr ⟨hC', keptByBlocks_ditherInRange.step s t hD ht, hP'⟩

/-! ### Reset (10_state.md R49) -/

/-- Reset lists no cell of a wave, reduced or tier table. -/
theorem reset_tables : (∀ h, State.reset.tables.wf.get h = []) ∧ (∀ h, State.reset.tables.rt.get h = []) ∧
    ∀ t h, (State.reset.tables.tb.get t).get h = [] :=
  ⟨fun h => tableOf_resetWith Cfg.ref (.wf h), fun h => tableOf_resetWith Cfg.ref (.rt h),
    fun t h => tableOf_resetWith Cfg.ref (.tb t h)⟩

theorem reset_registersInRange : RegistersInRange State.reset := by
  intro r
  cases r <;> decide

theorem reset_memoryCanonical : MemoryCanonical State.reset :=
  ⟨resetWith_tables_wf Cfg.ref, nofun, nofun, nofun⟩

theorem reset_tablesHoldSamples : TablesHoldSamples State.reset := by
  obtain ⟨hwf, hrt, htb⟩ := reset_tables
  constructor
  case wf => intro h; rw [hwf]; exact cellsAreSamples_nil
  case rt => intro h; rw [hrt]; exact cellsAreSamples_nil
  case tb => intro t h; rw [htb]; exact cellsAreSamples_nil
  all_goals exact cellsAreSamples_nil

theorem reset_dutyTableSums : DutyTableSums State.reset :=
  ⟨fun _ t => .inr ⟨dutyCount_resetWith Cfg.ref .first t, dutyCount_resetWith Cfg.ref .second t⟩, nofun⟩

theorem reset_sequencerInRange : SequencerInRange State.reset where
  counts h t := (dutyCount_resetWith Cfg.ref h t).trans_le (Nat.zero_le _)
  shadow t := by cases t <;> decide
  position := nofun
  length := nofun
  frac h := by cases h <;> decide
  shFrac := by decide
  dacc h := by cases h <;> decide

theorem inFilterRange_zero : inFilterRange 0 := ⟨by decide, by decide⟩

/-- Settles O21: no enable, no pending commit and no written cell is there to break an invariant. -/
theorem resetMeetsEveryInvariant : Obligations.ResetMeetsEveryInvariant := by
  refine ⟨by decide, reset_memoryCanonical, reset_registersInRange, ?enables, reset_tablesHoldSamples, ?written,
    reset_dutyTableSums, reset_sequencerInRange, ?noise, ?waypoints⟩
  case enables => constructor <;> decide
  case written => exact ⟨nofun, nofun, nofun, nofun⟩
  case noise => exact ⟨inFilterRange_zero, inFilterRange_zero, inFilterRange_zero, by decide, by decide⟩
  case waypoints => exact ⟨by decide, nofun, nofun⟩

end Sys2Proof.Machine
end

section
/-! FGSTEP, COMMIT outside a two-phase commit, SETSHAPE and APPLY in noise mode (43_downsampler_and_tier_buffers.md R227,
40_clock_and_tier.md R128, 41_wavetable_builder.md R150, 48_system.md R365, R366). -/

namespace Sys2Proof.Machine

/-! ### Phase B (43_downsampler_and_tier_buffers.md R227) -/

/-- Settles O40: phase B commits SH to half PEND_HALF, and a commit leaves the other half as it was. -/
theorem fgstepCompletesPhaseB : Obligations.FgstepCompletesPhaseB := by
  intro s
  refine ⟨fun hp => congrArg Host.Outcome.next (finishPending_of_idle s hp), fun hp => ⟨finishPending s, rfl, ?_⟩⟩
  have hseq := finishPending_seq s hp
  refine ⟨by rw [finishPending_of_pending s hp]; rfl, by rw [hseq]; rfl, ?_⟩
  rw [finishPending_wf s hp, finishPending_rt s hp, finishPending_dutyT s hp, hseq]
  simp only [commitSteps, PerHalf.get_set_same, PerHalf.get_set_other, finishPending_tb_get s hp, Half.other_ne, and_true,
    and_false, if_false, implies_true]

/-- SETSHAPE completes phase B first, so one before it changes nothing. -/
theorem selectShape_finishPending (a : Nibble) (s : State) : selectShape a (finishPending s) = selectShape a s := by
  rw [selectShape, finishPending_idem, selectShape]

/-- Settles O41: phase B twice is phase B once, and it changes no register, waypoint or configuration a command reads. -/
theorem hostWritesFinishPendingFirst : Obligations.HostWritesFinishPendingFirst := by
  intro i s hi hwf hnop hqstat hgetp
  cases i
  case nop => exact absurd rfl hnop
  case qstat a => exact absurd rfl (hqstat a)
  case getp a b => exact absurd rfl (hgetp a b)
  case setshape a => simp only [exec, execSetshape, selectShape_finishPending]
  case setparam a b imm =>
    obtain ⟨r, hr⟩ := Option.isSome_iff_exists.mp ((wellFormed_setparam a b imm).symm.trans hwf)
    rw [exec_setparam_of_some a b imm _ r hr, exec_setparam_of_some a b imm _ r hr, finishPending_idem]
  case putp a b imm =>
    obtain ⟨r, hr⟩ := Option.isSome_iff_exists.mp ((wellFormed_putp a b imm).symm.trans hwf)
    rw [exec_putp_of_some a b imm _ r hr, exec_putp_of_some a b imm _ r hr, finishPending_idem]
  case setfreq imm => simp only [exec, execSetfreq, finishPending_idem]
  case setper imm => simp only [exec, execSetper, finishPending_idem, finishPending_cfg]
  case setduty imm => simp only [exec, execSetduty, finishPending_idem]
  case setpw imm => simp only [exec, execSetpw, finishPending_idem, finishPending_params]
  case tglexact => simp only [exec, execTglexact, finishPending_idem]
  case tglsync => simp only [exec, execTglsync, finishPending_idem]
  case wpt v => simp only [exec, execWpt, finishPending_idem]
  case wpts v w => simp only [exec, execWpts, finishPending_idem]
  case commit => simp only [exec, execCommit, finishPending_idem]
  case wpclr => simp only [exec, execWpclr, finishPending_idem]
  case applyAll => simp only [exec, execApply, finishPending_idem]
  case fgstep => simp only [exec, execFgstep, finishPending_idem]
  all_goals cases hi

/-! ### COMMIT (40_clock_and_tier.md R128) -/

theorem exec_commit_of_idle (s : State) (hp : s.flags.pend = false) : exec .commit s = .next (update s) := by
  simp only [exec, execCommit, finishPending_of_idle s hp]

/-- The state APPLY starts the mode switch in: phase B done, SYNC held in noise mode, RUN set (48_system.md R365). -/
def applyStart (s : State) : State :=
  { holdSync (finishPending s) with flags := { (holdSync (finishPending s)).flags with run := true } }

theorem exec_applyAll (s : State) : exec .applyAll s = .next (modeSwitch (applyStart s)) := rfl

theorem holdSync_of_wave (s : State) (hn : shapeOf s.params ≠ .noise) : holdSync s = s :=
  if_neg fun h => hn h.1

theorem applyStart_of_wave (s : State) (hn : shapeOf s.params ≠ .noise) :
    applyStart s = { finishPending s with flags := { (finishPending s).flags with run := true } } := by
  rw [applyStart, holdSync_of_wave _ (by simpa using hn)]

/-- Settles O42: the three cases of `Update` that are no phase A; the mode switch of a running machine is APPLY's. -/
theorem commitWithoutPhases : Obligations.CommitWithoutPhases := by
  intro s hp
  rw [exec_commit_of_idle s hp]
  refine ⟨fun hr => ?stopped, fun hr h4 => ?noise, fun hr hlt ht => ?newTier⟩
  case stopped => rw [update_of_stopped s hr]
  case noise =>
    have hn : shapeOf s.params = .noise := (shapeOf_eq_noise_iff _).mpr h4.ge
    rw [update_of_noise s hr hn]
    exact ⟨noiseCoeffs s, rfl, rfl, rfl⟩
  case newTier =>
    have hn := shapeOf_ne_noise_of_lt _ hlt
    have hrun : ({ s with flags := { s.flags with run := true } } : State) = s := by rw [← hr]
    rw [update_of_newTier s hr hn ht, exec_applyAll, applyStart_of_wave s hn, finishPending_of_idle s hp, hrun]

/-! ### SETSHAPE (41_wavetable_builder.md R150) -/

/-- The number SETSHAPE stores is already in the range of SHAPE. -/
theorem clamped_shape (a : Nibble) :
    BitVec.ofInt 48 (clamp ((min a.toNat 4 : Nat) : Int) 0 4) = BitVec.ofNat 48 (min a.toNat 4) := by
  rw [clamp_of_mem _ 0 4 (by omega) (by omega), BitVec.ofInt_natCast]

/-- SETSHAPE enters noise mode: SYNC is remembered and cleared. -/
theorem selectShape_enters (a : Nibble) (s : State) (ha : 4 ≤ a.toNat) (hs : s.params.shape.toNat < 4) :
    selectShape a s = { finishPending s with
      params := { s.params with shape := BitVec.ofNat 48 (min a.toNat 4), sync := 0 }
      flags := { (finishPending s).flags with priorSync := s.params.sync == 1 } } := by
  have hn : shapeOf s.params ≠ .noise := shapeOf_ne_noise_of_lt _ hs
  have hnew : (min a.toNat 4 == 4) = true := by simp [ha]
  rw [← clamped_shape]
  simp only [selectShape, switchSync, finishPending_params, hn, hnew, decide_false, Bool.not_false, Bool.and_true, if_true,
    writeReg, setPriorSync, setReg, regLo, regHi]
  rfl

/-- SETSHAPE leaves noise mode: SYNC takes the value remembered. -/
theorem selectShape_leaves (a : Nibble) (s : State) (ha : a.toNat < 4) (hs : 4 ≤ s.params.shape.toNat) :
    selectShape a s = { finishPending s with
      params := { s.params with
        shape := BitVec.ofNat 48 (min a.toNat 4), sync := if s.flags.priorSync then 1 else 0 } } := by
  have hn : shapeOf s.params = .noise := (shapeOf_eq_noise_iff _).mpr hs
  have hnew : (min a.toNat 4 == 4) = false := by simp; omega
  rw [← clamped_shape]
  cases hprior : s.flags.priorSync
  all_goals
    simp only [selectShape, switchSync, finishPending_params, finishPending_flags_priorSync, hprior, hn, hnew, decide_true,
      Bool.not_false, Bool.and_true, Bool.false_and, if_true, writeReg, setReg, regLo, regHi]
    rfl

/-- SETSHAPE within the wave families or within noise mode leaves SYNC alone. -/
theorem selectShape_stays (a : Nibble) (s : State) (h : 4 ≤ a.toNat ↔ 4 ≤ s.params.shape.toNat) :
    selectShape a s = { finishPending s with
      params := { s.params with shape := BitVec.ofNat 48 (min a.toNat 4) } } := by
  have hsame : (min a.toNat 4 == 4) = decide (shapeOf s.params = .noise) := by
    rw [Bool.eq_iff_iff, beq_iff_eq, decide_eq_true_iff, shapeOf_eq_noise_iff, ← h]
    omega
  rw [← clamped_shape]
  simp only [selectShape, switchSync, finishPending_params, hsame, Bool.and_not_self, Bool.not_and_self, writeReg,
    setReg, regLo, regHi]
  simp

/-- SYNC after SETSHAPE (41_wavetable_builder.md R150). -/
def shapedSync (a : Nibble) (s : State) : Imm :=
  if 4 ≤ a.toNat ∧ s.params.shape.toNat < 4 then 0
  else if a.toNat < 4 ∧ 4 ≤ s.params.shape.toNat then (if s.flags.priorSync then 1 else 0) else s.params.sync

/-- PRIOR_SYNC after SETSHAPE (R150). -/
def shapedPrior (a : Nibble) (s : State) : Bool :=
  if 4 ≤ a.toNat ∧ s.params.shape.toNat < 4 then s.params.sync == 1 else s.flags.priorSync

/-- SETSHAPE before the mode switch, in its three cases at once. -/
theorem selectShape_eq (a : Nibble) (s : State) :
    selectShape a s = { finishPending s with
      params := { s.params with shape := BitVec.ofNat 48 (min a.toNat 4), sync := shapedSync a s }
      flags := { (finishPending s).flags with priorSync := shapedPrior a s } } := by
  have hprior : (finishPending s).flags.priorSync = s.flags.priorSync := finishPending_flags_priorSync s
  unfold shapedSync shapedPrior
  rcases Nat.lt_or_ge a.toNat 4 with ha | ha <;> rcases Nat.lt_or_ge s.params.shape.toNat 4 with hs | hs
  · rw [selectShape_stays a s (by omega), if_neg (by omega), if_neg (by omega), if_neg (by omega), ← hprior]
  · have hout : ¬ (4 ≤ a.toNat ∧ s.params.shape.toNat < 4) := by omega
    have hin : a.toNat < 4 ∧ 4 ≤ s.params.shape.toNat := ⟨ha, hs⟩
    rw [selectShape_leaves a s ha hs, if_neg hout, if_pos hin, if_neg hout, ← hprior]
  · rw [selectShape_enters a s ha hs, if_pos ⟨ha, hs⟩, if_pos ⟨ha, hs⟩]
  · rw [selectShape_stays a s (by omega), if_neg (by omega), if_neg (by omega), if_neg (by omega), ← hprior]

theorem exec_setshape (a : Nibble) (s : State) :
    exec (.setshape a) s =
      .next (if s.flags.run then modeSwitch (selectShape a s) else selectShape a s) := by
  have hrun : (selectShape a s).flags.run = s.flags.run := by
    rw [selectShape_eq]
    exact finishPending_flags_run s
  simp only [exec, execSetshape, hrun]

/-- Before the mode switch SETSHAPE outputs nothing. -/
theorem addsOnlySquareLevels_selectShape (a : Nibble) (s : State) : AddsOnlySquareLevels s (selectShape a s) := by
  rw [selectShape_eq]
  exact addsOnlySquareLevels_of_eq _ _ (finishPending_trace s)

/-- Settles O31: the mode switch, where it runs, writes no parameter register and not PRIOR_SYNC. -/
theorem setshapeSavesAndRestoresSync : Obligations.SetshapeSavesAndRestoresSync := by
  intro a s
  have heq := selectShape_eq a s
  have htrace := addsOnlySquareLevels_selectShape a s
  have hothers : ∀ q : Reg, q ≠ .shape → q ≠ .sync → getReg (selectShape a s).params q = getReg s.params q := by
    intro q hshape hsync
    rw [heq]
    cases q <;> first | rfl | exact absurd rfl hshape | exact absurd rfl hsync
  refine ⟨_, exec_setshape a s, ?_⟩
  cases hrun : s.flags.run
  case false =>
    refine ⟨?_, ?_, ?_, hothers, ?_, ?_, ?_, ?_, htrace⟩
    all_goals simp only [Bool.false_eq_true, if_false, heq]
    all_goals first | rfl | simp [hrun]
  case true =>
    have hkept := hostFrame_modeSwitch (selectShape a s)
    simp only [if_true, modeSwitch_params]
    refine ⟨?_, ?_, ?_, hothers, ?_, ?_, ?_, ?_, addsOnlySquareLevels_trans _ _ _ htrace hkept.trace⟩
    · rw [heq]
    · rw [heq]; rfl
    · rw [hkept.priorSync, heq]; rfl
    · rw [hkept.priorSync, heq]
    · rw [hkept.waypoints, heq]; simp
    · rw [hkept.run, heq]; simp [hrun]
    · rw [hkept.dacOut, heq]; simp

/-! ### APPLY in noise mode (48_system.md R365, 70_reset_and_hazards.md R443) -/

/-- In noise mode SYNC is held 0 and remembered. -/
theorem holdSync_of_noise (s : State) (hn : shapeOf s.params = .noise) :
    holdSync s = { s with
      params := { s.params with sync := if s.params.sync = 1 then 0 else s.params.sync }
      flags := { s.flags with priorSync := s.flags.priorSync || s.params.sync == 1 } } := by
  by_cases hs : s.params.sync = 1
  · rw [holdSync, if_pos ⟨hn, hs⟩, if_pos hs, hs]
    simp only [writeReg, setPriorSync, setReg, regLo, regHi, beq_self_eq_true, Bool.or_true]
    rfl
  · have hbit : (s.params.sync == 1) = false := by simpa using hs
    rw [holdSync, if_neg fun h => hs h.2, if_neg hs, hbit, Bool.or_false]

/-- Settles O47: phase B, the held SYNC and the noise branch of the mode switch, in this order. -/
theorem applyStartsNoise : Obligations.ApplyStartsNoise := by
  intro s h4
  have hn : shapeOf (finishPending s).params = .noise := by
    rw [finishPending_params]
    exact (shapeOf_eq_noise_iff _).mpr h4.ge
  have hheld := holdSync_of_noise _ hn
  have hstart : applyStart s = { finishPending s with
      params := { s.params with sync := if s.params.sync = 1 then 0 else s.params.sync }
      flags := { (finishPending s).flags with run := true, priorSync := s.flags.priorSync || s.params.sync == 1 } } := by
    rw [applyStart, hheld]
    simp
  have hshape : shapeOf (applyStart s).params = .noise := by
    rw [hstart]
    exact (shapeOf_eq_noise_iff _).mpr h4.ge
  have hN := noiseStarted_modeSwitch _ hshape
  have hkept := hostFrame_modeSwitch (applyStart s)
  refine ⟨_, exec_applyAll s, ?_, hN.enNoise, hN.enSlow, hN.enFast, hN.pend, ?_, ?_, ?_, ?_, ?_, ?_, ?_, ?_, ?_⟩
  · rw [hkept.run, hstart]
  · rw [modeSwitch_params, hstart]
  · rw [hkept.priorSync, hstart]
  · rw [hN.tables, hstart]
  · rw [hN.seq, hstart]
  · rw [hN.derived, hstart]; simp
  · rw [hN.noise, hstart]; simp [noiseCoeffs]
  · rw [hkept.waypoints, hstart]; simp
  · rw [hkept.dacOut, hstart]; simp
  · exact addsOnlySquareLevels_trans _ _ _ (addsOnlySquareLevels_of_eq _ _ (by rw [hstart]; simp)) hkept.trace

end Sys2Proof.Machine
end

section
/-! The derived tables cell by cell (41_wavetable_builder.md R185, 43_downsampler_and_tier_buffers.md R211, R217), as APPLY and
phase A of a commit leave them. -/

namespace Sys2Proof.Machine

/-! ### Reading a table written whole -/

theorem readCell_ofCells (t : State) (sp : Space) (cells : List Cell) (i : Nat)
    (ht : tableOf t sp = Memory.ofCells cells) (hi : i < cells.length) : readCell t sp i = cells.getD i 0 := by
  have hcell : cells[i]? = some cells[i] := List.getElem?_eq_getElem hi
  rw [List.getD_eq_getElem?_getD, hcell]
  exact readCell_of_find t sp i _ (by rw [ht, Memory.find_ofCells, hcell, Option.getD_some])

/-- Cell `k` of the reduction is every 25.6th cell of the wave (43_downsampler_and_tier_buffers.md R211). -/
theorem reduceCells_getD (wf : List Cell) (k : Nat) (hk : k < 160) : (reduceCells wf).getD k 0 = wf.getD (k * 128 / 5) 0 := by
  simp [reduceCells, redLen, fdiv, hk]

/-- Cell `i` of a tier buffer: CENTER for an empty half, else the walk over RT that stays on its last sample (R217). -/
theorem buildTB_getD (rt : List Cell) (d : Nat) (k : Tier) (i : Nat) (hi : i < samplesPerCycle k) :
    (buildTB rt d k).getD i 0 = if d = 0 then 2048 else rt.getD (min i (d - 1) * 160 / d) 0 := by
  unfold buildTB
  split
  · simp [hi, center]
  · simp [fdiv, hi]

/-- The walk over RT stays inside it. -/
theorem walk_lt (i d : Nat) (hd : d ≠ 0) : min i (d - 1) * 160 / d < 160 := by
  rw [Nat.div_lt_iff_lt_mul (by omega), Nat.mul_comm]
  exact Nat.mul_lt_mul_of_pos_left (by omega) (by decide)

/-! ### A half that holds its derived tables -/

/-- Half `h` of `t` holds the tables derived for it from `s` in `fm`. -/
structure HoldsHalf (s t : State) (fm : FastMode) (h : Half) : Prop where
  wf : tableOf t (.wf h) = Memory.ofCells ((buildWave s fm).get h)
  rt : tableOf t (.rt h) = Memory.ofCells (reduceCells ((buildWave s fm).get h))
  tb : ∀ k, fm = .fast k → tableOf t (.tb k h) =
    Memory.ofCells (buildTB (reduceCells ((buildWave s fm).get h)) (countFor s.cfg s.params.duty.toNat h k) k)

theorem buildWave_length (s : State) (fm : FastMode) (h : Half) : ((buildWave s fm).get h).length = 4097 := by
  rw [buildWave_get, waveCells_length]
  rfl

theorem HoldsHalf.readCell_wf {s t : State} {fm : FastMode} {h : Half} (hH : HoldsHalf s t fm h) (i : Nat)
    (hi : i < 4097) : readCell t (.wf h) i = ((buildWave s fm).get h).getD i 0 :=
  readCell_ofCells t _ _ i hH.wf (by rwa [buildWave_length])

theorem HoldsHalf.readCell_rt {s t : State} {fm : FastMode} {h : Half} (hH : HoldsHalf s t fm h) (k : Nat)
    (hk : k < 160) : readCell t (.rt h) k = readCell t (.wf h) (k * 128 / 5) := by
  rw [hH.readCell_wf _ (by omega), ← reduceCells_getD _ k hk]
  exact readCell_ofCells t _ _ k hH.rt (by rwa [reduceCells_length])

theorem HoldsHalf.readCell_tb {s t : State} {fm : FastMode} {h : Half} (hH : HoldsHalf s t fm h) (k : Tier) (i : Nat)
    (hk : fm = .fast k) (hi : i < samplesPerCycle k) :
    readCell t (.tb k h) i =
      if countFor s.cfg s.params.duty.toNat h k = 0 then 2048
      else readCell t (.rt h) (min i (countFor s.cfg s.params.duty.toNat h k - 1) * 160 /
        countFor s.cfg s.params.duty.toNat h k) := by
  rw [readCell_ofCells t _ _ i (hH.tb k hk) (by rwa [buildTB_length]), buildTB_getD _ _ k i hi]
  split
  · rfl
  · rename_i hd
    exact (readCell_ofCells t _ _ _ hH.rt (by rw [reduceCells_length]; exact walk_lt i _ hd)).symm

/-- A rendered cell holds its level, clamped (41_wavetable_builder.md R185). -/
theorem buildWave_getD (s : State) (fm : FastMode) (h : Half) (i : Nat) (hi : i < 4097) :
    ((buildWave s fm).get h).getD i 0 =
      levelCell (waveLevel s.params (arbSrc s.cfg.arbSharp fm (positions s)) h (min i 4095)) := by
  rw [buildWave_get, List.getD_eq_getElem?_getD, waveCells_getElem? _ _ _ i hi]
  rfl

/-- The tables of a derivation depend on the registers, the waypoints and the configuration alone. -/
theorem holdsHalf_congr (s u t : State) (fm : FastMode) (h : Half) (hp : u.params = s.params)
    (hw : u.waypoints = s.waypoints) (hc : u.cfg = s.cfg) (hH : HoldsHalf u t fm h) : HoldsHalf s t fm h := by
  have hbuild : buildWave u fm = buildWave s fm := by simp only [buildWave, positions_congr s u hw, hp, hc]
  obtain ⟨hwf, hrt, htb⟩ := hH
  constructor <;> simpa only [← hbuild, ← hp, ← hc]

theorem holdsHalf_of_waveStarted (s t : State) (h : Half) (hW : WaveStarted s t) : HoldsHalf s t (selectTier s) h where
  wf := hW.wf h
  rt := hW.rt h
  tb k hk := by
    have htb := hW.tb k h
    rw [if_pos hk, startedHalf, hk] at htb
    rw [hk]
    exact htb

theorem holdsHalf_of_phaseADone (s t : State) (hA : PhaseADone s t) : HoldsHalf s t s.seq.fastMode s.seq.half.other where
  wf := by rw [tableOf, hA.wf, PerHalf.get_set_same]; rfl
  rt := by rw [tableOf, hA.rt, PerHalf.get_set_same]; rfl
  tb k hk := by
    have htb := hA.tb k s.seq.half.other
    rw [if_pos ⟨hk, rfl⟩, committedHalf, hk] at htb
    rw [hk]
    exact htb

/-! ### The tables APPLY derives -/

@[simp] theorem applyStart_waypoints (s : State) : (applyStart s).waypoints = s.waypoints := by
  unfold applyStart holdSync
  split <;> simp

@[simp] theorem applyStart_cfg (s : State) : (applyStart s).cfg = s.cfg := by
  unfold applyStart holdSync
  split <;> simp

theorem applyStart_params_of_wave (s : State) (hn : shapeOf s.params ≠ .noise) : (applyStart s).params = s.params := by
  rw [applyStart_of_wave s hn]
  exact finishPending_params s

/-- What APPLY with a wave family leaves is what the mode switch leaves. -/
theorem waveStarted_apply (s : State) (hlt : s.params.shape.toNat < 4) :
    WaveStarted (applyStart s) (modeSwitch (applyStart s)) := by
  have hn := shapeOf_ne_noise_of_lt _ hlt
  exact waveStarted_modeSwitch _ (by rwa [applyStart_params_of_wave s hn])

theorem holdsHalf_apply (s : State) (hlt : s.params.shape.toNat < 4) (h : Half) :
    HoldsHalf s (modeSwitch (applyStart s)) (modeSwitch (applyStart s)).seq.fastMode h := by
  have hW := waveStarted_apply s hlt
  rw [hW.fastMode]
  exact holdsHalf_congr s _ _ _ h (applyStart_params_of_wave s (shapeOf_ne_noise_of_lt _ hlt)) (applyStart_waypoints s)
    (applyStart_cfg s) (holdsHalf_of_waveStarted _ _ h hW)

/-- Settles O45: both halves hold the tables derived for them. -/
theorem applyFillsTheTables : Obligations.ApplyFillsTheTables := by
  intro s hlt
  refine ⟨_, exec_applyAll s, fun h => ?_⟩
  have hH := holdsHalf_apply s hlt h
  refine ⟨fun i hi => ?level, ?guard, hH.readCell_rt, hH.readCell_tb⟩
  case level =>
    rw [hH.readCell_wf i (by omega), buildWave_getD _ _ _ i (by omega), levelCell_toInt, Nat.min_eq_left (by omega)]
    rfl
  case guard =>
    rw [hH.readCell_wf 4096 (by omega), hH.readCell_wf 4095 (by omega), buildWave_getD _ _ _ 4096 (by omega),
      buildWave_getD _ _ _ 4095 (by omega)]
    rfl

/-! ### The tables phase A commits (43_downsampler_and_tier_buffers.md R226) -/

/-- A count as its DutyTable cell, for any configuration (43_downsampler_and_tier_buffers.md R213, log 16). -/
theorem dutyCells_get_toNat (c : Cfg) (d : Nat) (h : Half) (k : Tier) :
    ((dutyCells c d h).get k).toNat = countFor c d h k % 2 ^ 16 := by
  rw [dutyCells, PerTier.get_make, BitVec.toNat_ofNat]

/-- The tables of the half being output are as before phase A, and so are the inactive tiers of the other half. -/
theorem phaseADone_tables_kept (s t : State) (hA : PhaseADone s t) :
    tableOf t (.wf s.seq.half) = tableOf s (.wf s.seq.half) ∧ tableOf t (.rt s.seq.half) = tableOf s (.rt s.seq.half) ∧
    (∀ k, tableOf t (.tb k s.seq.half) = tableOf s (.tb k s.seq.half)) ∧
    (∀ k h, s.seq.fastMode ≠ .fast k → tableOf t (.tb k h) = tableOf s (.tb k h)) ∧
    (∀ k, dutyCount t s.seq.half k = dutyCount s s.seq.half k) := by
  refine ⟨?_, ?_, fun k => ?_, fun k h hk => ?_, fun k => ?_⟩
  · rw [tableOf, hA.wf, PerHalf.get_other_set]; rfl
  · rw [tableOf, hA.rt, PerHalf.get_other_set]; rfl
  · rw [tableOf, hA.tb, if_neg (by simp)]; rfl
  · rw [tableOf, hA.tb, if_neg (by simp [hk])]; rfl
  · rw [dutyCount, hA.duty, PerHalf.get_other_set]; rfl

/-- The step sizes of the half being output are as before phase A, those of the other half are derived. -/
theorem phaseADone_steps (s t : State) (hA : PhaseADone s t) :
    (t.seq.increment.get s.seq.half = s.seq.increment.get s.seq.half ∧
      t.seq.incBase.get s.seq.half = s.seq.incBase.get s.seq.half ∧
      t.seq.incFrac.get s.seq.half = s.seq.incFrac.get s.seq.half ∧
      t.seq.ratio.get s.seq.half = s.seq.ratio.get s.seq.half) ∧
    t.seq.increment.get s.seq.half.other = (committedHalf s s.seq.half.other).increment ∧
      t.seq.incBase.get s.seq.half.other = (committedHalf s s.seq.half.other).incBase ∧
      t.seq.incFrac.get s.seq.half.other = (committedHalf s s.seq.half.other).incFrac ∧
      t.seq.ratio.get s.seq.half.other = (committedHalf s s.seq.half.other).ratio := by
  rw [hA.seq]
  simp only [commitSteps, PerHalf.get_other_set, PerHalf.get_set_same, and_self]

/-- The tables of the other half are the derived ones. -/
theorem phaseADone_tables_new (s t : State) (hA : PhaseADone s t) :
    t.tables.wf.get s.seq.half.other = (committedHalf s s.seq.half.other).wf ∧
    t.tables.rt.get s.seq.half.other = (committedHalf s s.seq.half.other).rt ∧
    t.tables.dutyT.get s.seq.half.other = (committedHalf s s.seq.half.other).duty ∧
    ∀ k, s.seq.fastMode = .fast k →
      (t.tables.tb.get k).get s.seq.half.other = (committedHalf s s.seq.half.other).tb := by
  refine ⟨?_, ?_, ?_, fun k hk => ?_⟩
  · rw [hA.wf, PerHalf.get_set_same]
  · rw [hA.rt, PerHalf.get_set_same]
  · rw [hA.duty, PerHalf.get_set_same]
  · rw [hA.tb, if_pos ⟨hk, rfl⟩]

theorem exec_commit_of_sameTier (s : State) (hp : s.flags.pend = false) (hr : s.flags.run = true)
    (hlt : s.params.shape.toNat < 4) (ht : selectTier s = s.seq.fastMode) : exec .commit s = .next (phaseA s) := by
  rw [exec_commit_of_idle s hp, update_of_sameTier s hr (shapeOf_ne_noise_of_lt _ hlt) ht]
  rfl

/-- Settles O43: phase A, field by field. -/
theorem commitPhaseAWritesTheOtherHalf : Obligations.CommitPhaseAWritesTheOtherHalf := by
  intro s hp hr hlt ht
  have hA := phaseADone_phaseA s
  have hH := holdsHalf_of_phaseADone s _ hA
  obtain ⟨hwf, hrt, htb, htier, hcount⟩ := phaseADone_tables_kept s _ hA
  obtain ⟨⟨hinc, hbase, hfrac, hratio⟩, hinc', hbase', hfrac', hratio'⟩ := phaseADone_steps s _ hA
  obtain ⟨hwf', hrt', hduty', htb'⟩ := phaseADone_tables_new s _ hA
  refine ⟨phaseA s, exec_commit_of_sameTier s hp hr hlt ht, hA.flags, hA.derived, ?_⟩
  simp only [derive_halves_get]
  refine ⟨hA.shadow, by rw [hA.seq]; rfl, fun i => readCell_congr _ _ _ i hwf, fun i => readCell_congr _ _ _ i hrt,
    fun k i => readCell_congr _ _ _ i (htb k), fun k hk i => readCell_congr _ _ _ i (htier k _ hk), hcount,
    hinc, hbase, hfrac, hratio, hH.readCell_wf, hH.readCell_rt, fun k => ?count, hH.readCell_tb, hwf', hrt', hduty', htb',
    hinc', hbase', hfrac', hratio', rfl, rfl, rfl, rfl, rfl, rfl, rfl, rfl⟩
  case count =>
    rw [dutyCount, hduty']
    exact dutyCells_get_toNat _ _ _ k

end Sys2Proof.Machine
end

section
/-! The pin and the independent square wave (46_unsynced_square.md R311, R312, 45_sequencer_and_sync_square.md R290), SETPARAM
of bank 5, and what holds right after APPLY with a wave family (40_clock_and_tier.md R130, R131). -/

namespace Sys2Proof.Machine

/-! ### The paths of the independent square wave (46_unsynced_square.md R312) -/

theorem deriveSquare_of_pwm (s : State) (hs : s.params.sync ≠ 1) (hr : s.flags.run = true)
    (hf : s.cfg.usqT3 ≤ s.params.qFreq.toNat) :
    deriveSquare s = startPwm s.params.qFreq.toNat s.params.qDuty.toNat (squareOff s) := by
  obtain ⟨h | h, -⟩ | ⟨-, -, -, e⟩ | ⟨-, -, h, -⟩ := deriveSquare_cases s
  · exact absurd h hs
  · simp [hr] at h
  · exact e
  · omega

theorem deriveSquare_of_accumulator (s : State) (hs : s.params.sync ≠ 1) (hr : s.flags.run = true)
    (hf : s.params.qFreq.toNat < s.cfg.usqT3) :
    deriveSquare s = startAccumulator s.params.qFreq.toNat s.params.qDuty.toNat (squareOff s) := by
  obtain ⟨h | h, -⟩ | ⟨-, -, h, -⟩ | ⟨-, -, -, e⟩ := deriveSquare_cases s
  · exact absurd h hs
  · simp [hr] at h
  · omega
  · exact e

/-- SYNC = 0 is not SYNC = 1. -/
theorem sync_ne_one (p : Params) (h : p.sync = 0) : p.sync ≠ 1 := by
  rw [h]
  decide

/-- The range of the PWM path is one of four (46_unsynced_square.md R311). -/
theorem pwmRange_toNat (c : Cfg) (f : Nat) : (BitVec.ofNat 2 (pwmRangeOf c f)).toNat = pwmRangeOf c f := by
  have hrange : pwmRangeOf c f < 4 := by
    unfold pwmRangeOf
    split_ifs <;> decide
  rw [BitVec.toNat_ofNat, Nat.mod_eq_of_lt hrange]

/-- A rounded step is capped to its register (43_downsampler_and_tier_buffers.md R225). -/
theorem roundStep_toNat (i : Nat) : (roundStep i).toNat = min ((i + 500) / 1000) (2 ^ 32 - 1) := by
  rw [roundStep, fdiv, BitVec.toNat_ofNat, Nat.mod_eq_of_lt (by omega)]

/-! ### SETPARAM of bank 5 -/

/-- Bank 5 holds Q_FREQ and Q_DUTY (10_state.md R27). -/
theorem regAt_bank_five (b : Nibble) (hb : b.toNat ≤ 1) : regAt 5 b = some .qFreq ∨ regAt 5 b = some .qDuty := by
  have hcases : b = 0 ∨ b = 1 := by
    rcases Nat.le_one_iff_eq_zero_or_eq_one.mp hb with h | h
    · exact .inl (BitVec.eq_of_toNat_eq h)
    · exact .inr (BitVec.eq_of_toNat_eq h)
  obtain rfl | rfl := hcases
  · exact .inl rfl
  · exact .inr rfl

/-- Storing a register of bank 5 keeps SYNC. -/
theorem writeReg_bank_five_sync (b : Nibble) (r : Reg) (v : Int) (s : State) (hr : regAt 5 b = some r)
    (hb : b.toNat ≤ 1) : (writeReg r v s).params.sync = s.params.sync := by
  obtain h | h := regAt_bank_five b hb
  all_goals
    obtain rfl := Option.some.inj (hr.symm.trans h)
    rfl

/-- Settles O48: after the write `DeriveSquare` runs with SYNC = 0 and RUN = 1, and Q_FREQ selects its path. -/
theorem squareWaveFollowsBankFive : Obligations.SquareWaveFollowsBankFive := by
  intro b imm s _ hrun hsync hb
  obtain ⟨r, hr⟩ : ∃ r, regAt 5 b = some r := by
    obtain h | h := regAt_bank_five b hb <;> exact ⟨_, h⟩
  have hexec := exec_setparam_of_some 5 b imm s r ((paramReg_of_bank_le 5 b (by decide)).trans hr)
  generalize hw : writeReg r imm.toInt (finishPending s) = w at hexec
  have hwrun : w.flags.run = true := by rw [← hw]; simpa using hrun
  have hwsync : w.params.sync ≠ 1 := by
    rw [← hw, writeReg_bank_five_sync b r _ _ hr hb, finishPending_params]
    exact sync_ne_one _ hsync
  have hwusq : w.usq = s.usq := by rw [← hw]; simp
  have hwout : w.out = s.out := by rw [← hw]; simp
  have hwtrace : w.trace = s.trace := by rw [← hw]; simp
  have hwcfg : w.cfg = s.cfg := by rw [← hw]; simp
  rw [afterParam_of_running 5 w (by decide) hwrun] at hexec
  refine ⟨_, hexec, by rw [← hw]; simp, by rw [← hw]; simp, by rw [← hw]; simp, by rw [← hw]; simp, by rw [← hw]; simp,
    by rw [← hw]; simp, ?_⟩
  simp only [deriveSquare_params]
  rw [← hwcfg]
  refine ⟨fun hf => ?pwm, fun hf => ?accumulator⟩
  case pwm =>
    rw [deriveSquare_of_pwm w hwsync hwrun hf]
    refine ⟨rfl, rfl, pwmRange_toNat w.cfg _, fun hfit => fit_of_lt _ _ _ hfit, rfl, ?_, ?_, ?_, ?_, hwout, hwtrace⟩
    all_goals rw [← hwusq]; rfl
  case accumulator =>
    rw [deriveSquare_of_accumulator w hwsync hwrun hf]
    refine ⟨rfl, rfl, rfl, rfl, fun h => ?_, rfl, rfl, ?_, ?_, ?_, ?_⟩
    · rw [startAccumulator_usq_inc, PerHalf.get_make]
      exact roundStep_toNat _
    · rw [← hwtrace]; rfl
    all_goals rw [← hwusq]; rfl

/-! ### Right after APPLY with a wave family (40_clock_and_tier.md R130, R131) -/

/-- The chain of R123 written out. -/
theorem selectTier_eq (s : State) :
    selectTier s = (if s.params.exact = 1 then .slow
      else if s.params.fTarget.toNat < 1000000000 then .slow
      else if s.params.fTarget.toNat < s.cfg.tierT0 then .fast .t0
      else if s.params.fTarget.toNat < s.cfg.tierT1 then .fast .t1
      else if s.params.fTarget.toNat < s.cfg.tierT2 then .fast .t2
      else .fast .t3) := by
  simp only [selectTier, tierFor, beq_iff_eq]
  rfl

/-- A listed cell is an entry of the memory. -/
theorem Memory.mem_of_find (m : Memory) (i : Nat) (c : Cell) (h : Memory.find m i = some c) : (i, c) ∈ m := by
  induction m with
  | nil => cases h
  | cons p m ih =>
    obtain ⟨k, d⟩ := p
    rw [Memory.find_cons] at h
    split at h
    · subst_vars
      obtain rfl := Option.some.inj h
      exact List.mem_cons_self
    · exact List.mem_cons_of_mem _ (ih h)

/-- A written cell of a table of samples is a sample. -/
theorem exists_sample (n : Nat) (m : Memory) (hfilled : Memory.filled n m) (hsamples : CellsAreSamples m) (i : Nat)
    (hi : i < n) : ∃ c : Cell, Memory.find m i = some c ∧ c.toNat ≤ 4095 := by
  obtain ⟨c, hc⟩ := Option.isSome_iff_exists.mp (hfilled i hi)
  exact ⟨c, hc, hsamples _ (Memory.mem_of_find m i c hc)⟩

theorem halfRecordOf_rt_filled (s : State) (fm : FastMode) (r : RateNumbers) (h : Half) :
    Memory.filled redLen (halfRecordOf s fm r h).rt := by
  apply Memory.filled_ofCells
  simp

/-- The half APPLY starts on has samples, so its count is the length latched. -/
theorem seqLen_of_waveStarted (s t : State) (hc : s.cfg.valid = true) (hW : WaveStarted s t) (k : Tier)
    (hk : selectTier s = .fast k) : t.seq.seqLen.toNat = dutyCount t t.seq.half k := by
  have hsum := countFor_sum s.cfg hc s.params.duty.toNat k
  have hpos := samplesPerCycle_pos k
  have hcount := dutyCount_waveStarted s t hc hW
  have hle : dutyCount t t.seq.half k ≤ samplesPerCycle k := by rw [hcount]; exact countFor_le s.cfg hc _ _ k
  have hstart : 0 < dutyCount t t.seq.half k := by
    rw [hW.halfFast k hk]
    split
    · assumption
    · rename_i h0
      rw [hcount] at h0 ⊢
      omega
  rw [hW.seqLen k hk, latched_toNat _ k hle, Nat.max_eq_left hstart]

/-- What the mode switch into a wave does with the pin: with SYNC = 1 it takes the level of the half started, with SYNC = 0
the independent square wave takes over. -/
theorem modeSwitch_pin (s : State) (hn : shapeOf s.params ≠ .noise) :
    (s.params.sync = 1 → (modeSwitch s).flags.enUsq = false ∧ (modeSwitch s).flags.enPwm = false ∧
      (modeSwitch s).out.sqOut = level (modeSwitch s).seq.half ∧
      (modeSwitch s).trace = s.trace ++ [.sq (level (modeSwitch s).seq.half) 0]) ∧
    (s.params.sync = 0 → s.flags.run = true → s.cfg.usqT3 ≤ s.params.qFreq.toNat →
      (modeSwitch s).flags.enUsq = false ∧ (modeSwitch s).flags.enPwm = true ∧ (modeSwitch s).out.sqOut = s.out.sqOut ∧
      (modeSwitch s).trace = s.trace) ∧
    (s.params.sync = 0 → s.flags.run = true → s.params.qFreq.toNat < s.cfg.usqT3 →
      (modeSwitch s).flags.enUsq = true ∧ (modeSwitch s).flags.enPwm = false ∧
      (modeSwitch s).out.sqOut = level (modeSwitch s).usq.half ∧
      (modeSwitch s).trace = s.trace ++ [.sq (level (modeSwitch s).usq.half) 0]) := by
  rw [modeSwitch_eq_handover s hn]
  have hparams : (installedWave s).params = s.params := by simp [installedWave]
  have hrun : (installedWave s).flags.run = s.flags.run := by simp [installedWave]
  have hcfg : (installedWave s).cfg = s.cfg := by simp [installedWave]
  have hout : (installedWave s).out = s.out := by simp [installedWave]
  have htrace : (installedWave s).trace = s.trace := by simp [installedWave]
  generalize installedWave s = w at *
  rw [← hparams, ← hrun, ← hcfg, ← hout, ← htrace]
  refine ⟨fun hs => ?synced, fun hs hr hf => ?pwm, fun hs hr hf => ?accumulator⟩
  case synced =>
    rw [syncLevel_of_synced w hs, deriveSquare_of_synced (driveSq (level w.seq.half) 0 w) hs]
    exact ⟨rfl, rfl, rfl, rfl⟩
  case pwm =>
    rw [syncLevel_of_unsynced w hs, deriveSquare_of_pwm w (sync_ne_one _ hs) hr hf]
    exact ⟨rfl, rfl, rfl, rfl⟩
  case accumulator =>
    rw [syncLevel_of_unsynced w hs, deriveSquare_of_accumulator w (sync_ne_one _ hs) hr hf]
    exact ⟨rfl, rfl, rfl, rfl⟩

/-- Up to the mode switch APPLY leaves, but for RUN, everything `HostFrame` names. -/
theorem hostFrame_applyStart (s : State) (hn : shapeOf s.params ≠ .noise) :
    HostFrame { s with flags := { s.flags with run := true } } (applyStart s) := by
  rw [applyStart_of_wave s hn]
  constructor
  case trace => exact addsOnlySquareLevels_of_eq _ _ (finishPending_trace s)
  all_goals simp

/-- Settles O44: the wave branch of the mode switch, started after phase B with RUN set. -/
theorem applyStartsTheSelectedWave : Obligations.ApplyStartsTheSelectedWave := by
  intro s hc hlt
  have hn := shapeOf_ne_noise_of_lt _ hlt
  have hparams := applyStart_params_of_wave s hn
  have hcfg := applyStart_cfg s
  have hframe := hostFrame_applyStart s hn
  have hout : (applyStart s).out = s.out := by rw [applyStart_of_wave s hn]; simp
  have htrace : (applyStart s).trace = s.trace := by rw [applyStart_of_wave s hn]; simp
  have hvalid : (applyStart s).cfg.valid = true := by rwa [hcfg]
  have hW := waveStarted_apply s hlt
  have htier : ∀ fm, (modeSwitch (applyStart s)).seq.fastMode = fm ↔ selectTier (applyStart s) = fm := by
    intro fm
    rw [hW.fastMode]
  obtain ⟨hsynced, hpwm, hacc⟩ := modeSwitch_pin (applyStart s) (by rwa [hparams])
  rw [hparams, hout, hcfg, htrace] at hpwm
  rw [hparams, hcfg, htrace] at hacc
  rw [hparams, htrace] at hsynced
  refine ⟨_, exec_applyAll s, by rw [modeSwitch_flags_run]; rfl, hW.pend, hW.enNoise, ?tier, ?_, ?_, hW.waveBit, hW.seqIdx,
    hW.dacc, fun h => hW.halfSlow ((htier _).mp h), fun k h => hW.halfFast k ((htier _).mp h), fun k => ?sums,
    fun k h => seqLen_of_waveStarted _ _ hvalid hW k ((htier _).mp h), fun h i hi => ?wf, fun h i hi => ?rt,
    fun k h i hk hi => ?tb, hsynced, fun h0 => hpwm h0 rfl, fun h0 => hacc h0 rfl, ?params,
    hostFrame_trans _ _ _ hframe (hostFrame_modeSwitch _)⟩
  case tier => rw [hW.fastMode, selectTier_congr s _ hparams hcfg, selectTier_eq]
  case sums =>
    rw [dutyCount_waveStarted _ _ hvalid hW, dutyCount_waveStarted _ _ hvalid hW]
    exact countFor_sum _ hvalid _ k
  case wf =>
    rw [hW.wf]
    exact exists_sample 4097 _ (halfRecordOf_wf_filled _ _ _ _) (halfRecordOf_wf_samples _ _ _ _) i hi
  case rt =>
    rw [hW.rt]
    exact exists_sample 160 _ (halfRecordOf_rt_filled _ _ _ _) (halfRecordOf_rt_samples _ _ _ _) i hi
  case tb =>
    have hk' := (htier _).mp hk
    rw [hW.tb, if_pos hk']
    exact exists_sample _ _ (startedHalf_tb_filled _ k h hk') (halfRecordOf_tb_samples _ _ _ _) i hi
  case params => rw [modeSwitch_params, hparams]
  · rw [htier]; exact hW.enSlow
  · rw [Ne, htier]; exact hW.enFast

end Sys2Proof.Machine
end

section
/-! The pure functions of the derivation: the duty counts (43_downsampler_and_tier_buffers.md R213, R214), the clock's two
conversions (40_clock_and_tier.md R121, R122) and the frequency of the slow path (44_phase_accumulator.md R241 to R244). -/

namespace Sys2Proof.Machine

/-! ### Clamped and rounded natural numbers (00_scope.md R12) -/

theorem clampNat_of_mem (v l h : Nat) (hl : l ≤ v) (hh : v ≤ h) : clampNat v l h = v := by
  unfold clampNat
  split
  · omega
  · split <;> omega

/-- A rounded quotient is `q` exactly when `a` lies within half a divisor of `q` divisors, the lower end included. -/
theorem rdivNat_eq_iff (a b q : Nat) (hb : 0 < b) : rdivNat a b = q ↔ 2 * (b * q) ≤ 2 * a + b ∧ 2 * a < 2 * (b * q) + b := by
  rw [rdivNat, Nat.div_eq_iff (by omega), mul_comm q, mul_assoc]
  omega

/-- A common factor of dividend and divisor does not change the rounded quotient. -/
theorem rdivNat_mul_left (m a b : Nat) (hm : 0 < m) : rdivNat (m * a) (m * b) = rdivNat a b := by
  have hnum : 2 * (m * a) + m * b = m * (2 * a + b) := by ring
  have hden : 2 * (m * b) = m * (2 * b) := by ring
  rw [rdivNat, rdivNat, hnum, hden, Nat.mul_div_mul_left _ _ hm]

/-! ### The duty counts -/

/-- At a duty that is not extreme the count of the first half is clamped. -/
theorem firstCount_mem (c : Cfg) (hc : c.valid = true) (d : Nat) (k : Tier) (h0 : 0 < d) (h1 : d < 1000000) :
    c.minMaxDuty ≤ firstCount c d k ∧ firstCount c d k ≤ samplesPerCycle k - c.minMaxDuty := by
  have hm := Cfg.valid_minMaxDuty c hc
  have hs := samplesPerCycle_ge k
  rw [firstCount, if_neg (by omega), if_neg (show d ≠ dutyFull from Nat.ne_of_lt h1)]
  exact clampNat_mem _ _ _ (by omega)

theorem countFor_mem (c : Cfg) (hc : c.valid = true) (d : Nat) (k : Tier) (h0 : 0 < d) (h1 : d < 1000000) (h : Half) :
    c.minMaxDuty ≤ countFor c d h k ∧ countFor c d h k ≤ samplesPerCycle k - c.minMaxDuty := by
  have hm := Cfg.valid_minMaxDuty c hc
  have hs := samplesPerCycle_ge k
  obtain ⟨hlo, hhi⟩ := firstCount_mem c hc d k h0 h1
  cases h with
  | first => exact ⟨hlo, hhi⟩
  | second =>
    simp only [countFor]
    omega

/-- Settles O55: the second count is the rest of the cycle, and the first is clamped to at least MINMAXDUTY from both ends. -/
theorem dutyCountsMakeACycle : Obligations.DutyCountsMakeACycle := by
  intro c d k hc hd
  refine ⟨countFor_sum c hc d k, ?lowest, ?highest, ?between⟩
  case lowest =>
    rintro rfl
    rfl
  case highest =>
    rintro rfl
    exact Nat.sub_self _
  case between =>
    intro h0 h1 h
    have hm := Cfg.valid_minMaxDuty c hc
    obtain ⟨hlo, hhi⟩ := countFor_mem c hc d k h0 h1 h
    exact ⟨hlo, hhi, by omega⟩

/-! ### The clock (40_clock_and_tier.md R121, R122) -/

/-- The divisor `tc * m` gives a frequency from which rounding finds `tc` again, as long as the frequency exceeds `tc`: then half
a unit of frequency is worth less than half a unit of divisor. -/
theorem rdivNat_rdivNat (n m tc : Nat) (hm : 0 < m) (htc : 0 < tc) (hle : tc * (tc + 1) * m ≤ n) :
    rdivNat n (rdivNat n (tc * m) * m) = tc := by
  have hpos : 0 < tc * m := Nat.mul_pos htc hm
  obtain ⟨hlo, hhi⟩ := (rdivNat_eq_iff n (tc * m) _ hpos).mp rfl
  generalize rdivNat n (tc * m) = q at hlo hhi ⊢
  have hq : tc ≤ q := by
    by_contra hlt
    have : tc * m * q ≤ tc * m * tc := Nat.mul_le_mul_left _ (by omega)
    nlinarith
  have hstep : tc * m ≤ q * m := Nat.mul_le_mul_right m hq
  have hswap : q * m * tc = tc * m * q := by ring
  rw [rdivNat_eq_iff _ _ _ (by omega), hswap]
  omega

/-- Settles O56: rounding finds the divisor again, and the divisor is in its range, so the clamp keeps it. -/
theorem freqToTcInvertsTcToFreq : Obligations.FreqToTcInvertsTcToFreq := by
  intro c tc k hc hlo hhi hle
  obtain ⟨-, -, -, htc, -, -⟩ := Cfg.valid_timer c hc
  rw [freqToTc, tcToFreq, rdivNat_rdivNat _ _ tc (samplesPerCycle_pos k) (by omega) hle, clampNat_of_mem _ _ _ hlo hhi]

/-! ### The slow path at 50 % duty (44_phase_accumulator.md R241 to R244) -/

/-- `Cfg.valid` makes the calibration factor positive (00_scope.md R9). -/
theorem calFactor_pos (c : Cfg) (hc : c.valid = true) (cal : Bool) : 0 < (calFactor c cal).1 ∧ 0 < (calFactor c cal).2 := by
  simp only [Cfg.valid, Cfg.validTuning, Bool.and_eq_true, decide_eq_true_eq] at hc
  cases cal with
  | false => exact ⟨Nat.one_pos, Nat.one_pos⟩
  | true =>
    simp only [calFactor, if_true]
    omega

/-- TC_SLOW divides the timer clock, so the slow path has a positive rate (00_scope.md R9). -/
theorem fSlow_pos (c : Cfg) (hc : c.valid = true) : 0 < fSlow c := by
  obtain ⟨hpos, htc, hdvd, -, -, -⟩ := Cfg.valid_timer c hc
  exact Nat.div_pos (Nat.le_of_dvd hpos (Nat.dvd_of_mod_eq_zero hdvd)) htc

/-- DMIN is at most half a cycle, so a duty of one half is allowed at every frequency (R241). -/
theorem allowedDuty_half (f rate : Nat) : allowedDuty f 500000 rate = 500000 := by
  have hmin : dutyMin f rate ≤ 500000 := Nat.min_le_right _ _
  rw [allowedDuty, if_neg (by decide)]
  exact clampNat_of_mem _ _ _ hmin (by change 500000 ≤ 1000000 - _; omega)

/-- The step of one half at 50 % duty, where the cap does not bite (R242). -/
theorem stepFor_half (f cn cd rate : Nat) (h : Half)
    (hcap : f * cn * 2 ^ 33 ≤ (2 ^ 32 - 1) * 1000 * (cd * rate * 1000)) :
    stepFor f cn cd rate 500000 h = f * cn * 2 ^ 33 / (cd * rate * 1000) := by
  have hshare : dutyShare 500000 h = 500000 := by cases h <;> rfl
  have hquot : f * cn * 2 ^ 33 * 500 / (cd * rate * 500000) = f * cn * 2 ^ 33 / (cd * rate * 1000) := by
    rw [show cd * rate * 500000 = cd * rate * 1000 * 500 by ring, Nat.mul_div_mul_right _ _ (by decide)]
  rw [stepFor, hshare, if_pos (by decide), idealStep, fdiv, hquot, Nat.min_eq_left (Nat.div_le_of_le_mul (by linarith))]

/-- With equal steps `i` in both halves R244's quotient loses a factor of `1000 * i`. -/
theorem equalSteps_rdivNat (rate i cn cd : Nat) (hi : 0 < i) :
    rdivNat (rate * 1000000 * i * i * cd) (2 ^ 32 * 1000 * (i + i) * cn) = rdivNat (cd * rate * 1000 * i) (2 ^ 33 * cn) := by
  have hnum : rate * 1000000 * i * i * cd = 1000 * i * (cd * rate * 1000 * i) := by ring
  have hden : 2 ^ 32 * 1000 * (i + i) * cn = 1000 * i * (2 ^ 33 * cn) := by ring
  rw [hnum, hden, rdivNat_mul_left _ _ _ (by omega)]

/-- A step rounded down loses less than one unit, worth at most half of the final divisor: rounding restores the frequency. -/
theorem rdivNat_floor (f b k : Nat) (hb : 0 < b) (hk : 2 * b ≤ k) : rdivNat (b * (f * k / b)) k = f := by
  have hle : b * (f * k / b) ≤ f * k := Nat.mul_div_le _ _
  have hlt : f * k < b * (f * k / b) + b := Nat.lt_mul_div_succ _ hb
  rw [rdivNat_eq_iff _ _ _ (by omega), mul_comm k f]
  omega

/-- Settles O57: at 50 % duty both steps are the same rounded-down quotient, and R244 rounds it back to the target. -/
theorem slowPathReportsTargetAtHalfDuty : Obligations.SlowPathReportsTargetAtHalfDuty := by
  intro c f cal hc hf cn cd hbound hcap
  have hcal : calFactor c cal = (cn, cd) := by cases cal <;> rfl
  have hfactor := calFactor_pos c hc cal
  rw [hcal] at hfactor
  obtain ⟨hcn : 0 < cn, hcd : 0 < cd⟩ := hfactor
  have hb : 0 < cd * fSlow c * 1000 := by have := Nat.mul_pos hcd (fSlow_pos c hc); omega
  have hk : 2 * (cd * fSlow c * 1000) ≤ 2 ^ 33 * cn := by nlinarith
  have hstep := fun h => stepFor_half f cn cd (fSlow c) h hcap
  have hpos : 0 < f * cn * 2 ^ 33 / (cd * fSlow c * 1000) := Nat.div_pos (by nlinarith) hb
  have hext : isExtreme 500000 = false := by decide
  simp only [slowActual, slowDerive, allowedDuty_half, hcal, PerHalf.make, hstep, hext]
  rw [if_neg (by decide), if_neg (by omega), equalSteps_rdivNat _ _ _ _ hpos, mul_assoc f cn, mul_comm cn]
  exact rdivNat_floor f _ _ hb hk

end Sys2Proof.Machine
end

section
/-! The render functions: the symmetries of the sine (41_wavetable_builder.md R162), a composite without an arbitrary part
(R185, R188) and the places of the arbitrary source (R170, R171). -/

namespace Sys2Proof.Machine

/-! ### The four quarters of the sine (41_wavetable_builder.md R162) -/

theorem qsin_zero : qsin 0 = 0 := by decide

/-- The sine at place `r` of quarter `q`. -/
def quarterSine (q r : Nat) : Int :=
  match q with
  | 0 => qsin r
  | 1 => qsin (2048 - r)
  | 2 => -(qsin r : Int)
  | _ => -(qsin (2048 - r) : Int)

theorem sin15_eq_quarterSine (a : Int) :
    sin15 a = quarterSine ((a % 8192).toNat / 2048) ((a % 8192).toNat % 2048) := rfl

/-- `SIN15` at an angle whose quarter `q` and place `r` in the quarter are known. -/
theorem sin15_of_quarter (a m : Int) (q r : Nat) (ha : a = 8192 * m + (2048 * q + r : Nat)) (hq : q < 4) (hr : r < 2048) :
    sin15 a = quarterSine q r := by
  have hangle : (a % 8192).toNat = 2048 * q + r := by omega
  have hplace : (2048 * q + r) % 2048 = r := by omega
  have hquarter : (2048 * q + r) / 2048 = q := by omega
  rw [sin15_eq_quarterSine, hangle, hplace, hquarter]

/-- The rising quarter, up to and with its peak. -/
theorem sin15_rising (m : Int) (r : Nat) (hr : r ≤ 2048) : sin15 (8192 * m + r) = qsin r := by
  obtain hlt | rfl := Nat.lt_or_eq_of_le hr
  · exact sin15_of_quarter _ m 0 r (by omega) (by decide) hlt
  · exact sin15_of_quarter _ m 1 0 (by omega) (by decide) (by decide)

/-- The falling quarter, mirrored at the half cycle. -/
theorem sin15_falling (m : Int) (r : Nat) (hr : r ≤ 2048) : sin15 (8192 * m + 4096 - r) = qsin r := by
  obtain rfl | hpos := Nat.eq_zero_or_pos r
  · rw [sin15_of_quarter _ m 2 0 (by omega) (by decide) (by decide)]
    simp [quarterSine, qsin_zero]
  · rw [sin15_of_quarter _ m 1 (2048 - r) (by omega) (by decide) (by omega)]
    simp [quarterSine, Nat.sub_sub_self hr]

/-- The third quarter, down to and with the trough. -/
theorem sin15_sinking (m : Int) (r : Nat) (hr : r ≤ 2048) : sin15 (8192 * m + 4096 + r) = -qsin r := by
  obtain hlt | rfl := Nat.lt_or_eq_of_le hr
  · exact sin15_of_quarter _ m 2 r (by omega) (by decide) hlt
  · exact sin15_of_quarter _ m 3 0 (by omega) (by decide) (by decide)

/-- The last quarter, mirrored at the end of the cycle. -/
theorem sin15_returning (m : Int) (r : Nat) (hr : r ≤ 2048) : sin15 (8192 * m - r) = -qsin r := by
  obtain rfl | hpos := Nat.eq_zero_or_pos r
  · rw [sin15_of_quarter _ m 0 0 (by omega) (by decide) (by decide)]
    simp [quarterSine, qsin_zero]
  · rw [sin15_of_quarter _ (m - 1) 3 (2048 - r) (by omega) (by decide) (by omega)]
    simp [quarterSine, Nat.sub_sub_self hr]

/-- Every angle lies in one of the four quarters. -/
theorem exists_quarter (a : Int) : ∃ (m : Int) (r : Nat), r ≤ 2048 ∧
    (a = 8192 * m + r ∨ a = 8192 * m + 4096 - r ∨ a = 8192 * m + 4096 + r ∨ a = 8192 * m - r) := by
  obtain h | h | h | h : a % 8192 < 2048 ∨ (2048 ≤ a % 8192 ∧ a % 8192 < 4096) ∨ (4096 ≤ a % 8192 ∧ a % 8192 < 6144) ∨
    6144 ≤ a % 8192 := by omega
  · exact ⟨a / 8192, (a % 8192).toNat, by omega, by omega⟩
  · exact ⟨a / 8192, (4096 - a % 8192).toNat, by omega, by omega⟩
  · exact ⟨a / 8192, (a % 8192 - 4096).toNat, by omega, by omega⟩
  · exact ⟨a / 8192 + 1, (8192 - a % 8192).toNat, by omega, by omega⟩

/-- Settles O58: half a cycle later the rising quarter is the third and the falling one the last, with the sign reversed;
mirroring at the quarter swaps the first two quarters and the last two. -/
theorem sineHalfCycleSymmetry : Obligations.SineHalfCycleSymmetry := by
  intro a
  obtain ⟨m, r, hr, rfl | rfl | rfl | rfl⟩ := exists_quarter a
  case inl =>
    rw [sin15_rising m r hr, show 8192 * m + (r : Int) + 4096 = 8192 * m + 4096 + r by ring, sin15_sinking m r hr,
      show 4096 - (8192 * m + (r : Int)) = 8192 * (-m) + 4096 - r by ring, sin15_falling (-m) r hr]
    exact ⟨rfl, rfl⟩
  case inr.inl =>
    rw [sin15_falling m r hr, show 8192 * m + 4096 - (r : Int) + 4096 = 8192 * (m + 1) - r by ring,
      sin15_returning (m + 1) r hr, show 4096 - (8192 * m + 4096 - (r : Int)) = 8192 * (-m) + r by ring,
      sin15_rising (-m) r hr]
    exact ⟨rfl, rfl⟩
  case inr.inr.inl =>
    rw [sin15_sinking m r hr, show 8192 * m + 4096 + (r : Int) + 4096 = 8192 * (m + 1) + r by ring,
      sin15_rising (m + 1) r hr, show 4096 - (8192 * m + 4096 + (r : Int)) = 8192 * (-m) - r by ring,
      sin15_returning (-m) r hr, neg_neg]
    exact ⟨rfl, rfl⟩
  case inr.inr.inr =>
    rw [sin15_returning m r hr, show 8192 * m - (r : Int) + 4096 = 8192 * m + 4096 - r by ring, sin15_falling m r hr,
      show 4096 - (8192 * m - (r : Int)) = 8192 * (-m) + 4096 + r by ring, sin15_sinking (-m) r hr, neg_neg]
    exact ⟨rfl, rfl⟩

/-! ### A composite without an arbitrary part (41_wavetable_builder.md R185, R188) -/

/-- With amplitude 0 the arbitrary wave is flat, whatever its source. -/
theorem zcA_zero (p : Params) (src : List Int) (j : Nat) : zcA p src j 0 = 0 := by
  simp [zcA, rdiv]

/-- The level of a composite, term by term. -/
theorem waveLevel_composite (p : Params) (src : List Int) (h : Half) (i : Nat) (hs : p.shape.toNat = 3) :
    waveLevel p src h i = 2048 + p.cBias.toInt + zs p h i p.cWs.toNat + zcT p (cyclePlace h i) p.cWt.toNat +
      zcA p src (cyclePlace h i) p.cWa.toNat := by
  have hshape : shapeOf p = .composite := by simp only [shapeOf, hs]
  simp only [waveLevel, hshape]
  rfl

/-- Settles O59: the cell is the clamped level, whose arbitrary term vanishes with its weight. -/
theorem compositeWithoutArbitraryIsPlainSum : Obligations.CompositeWithoutArbitraryIsPlainSum := by
  intro s fm h i hs ha hi
  rw [buildWave_getD _ _ _ i (by omega), Nat.min_eq_left (by omega), waveLevel_composite _ _ _ _ hs, ha]
  change levelCell (_ + zcA _ _ _ 0) = _
  rw [zcA_zero, Int.add_zero]
  rfl

/-! ### The arbitrary source (41_wavetable_builder.md R170, R171) -/

/-- The pieces of a list from place `g k` to place `g (k + 1)` make a list of length `g n`, in which each piece that is not
empty starts at its place. -/
theorem flatMap_range_places {α : Type} (g : Nat → Nat) (piece : Nat → List α) (n : Nat) (h0 : g 0 = 0)
    (hmono : ∀ k, g k ≤ g (k + 1)) (hlen : ∀ k < n, (piece k).length = g (k + 1) - g k) :
    ((List.range n).flatMap piece).length = g n ∧
      ∀ k < n, g k < g (k + 1) → ((List.range n).flatMap piece)[g k]? = (piece k)[0]? := by
  induction n with
  | zero => exact ⟨h0.symm, fun k hk => absurd hk (Nat.not_lt_zero k)⟩
  | succ n ih =>
    obtain ⟨hlength, hplace⟩ := ih fun k hk => hlen k (by omega)
    have hlast := hlen n (by omega)
    have hn := hmono n
    rw [List.range_succ, List.flatMap_append, List.flatMap_singleton]
    refine ⟨by rw [List.length_append, hlength, hlast]; omega, fun k hk hstrict => ?_⟩
    obtain hlt | rfl := Nat.lt_or_eq_of_le (Nat.le_of_lt_succ hk)
    · have hbelow : g (k + 1) ≤ g n := monotone_nat_of_le_succ hmono hlt
      rw [List.getElem?_append_left (by omega), hplace k hlt hstrict]
    · rw [List.getElem?_append_right (by omega), hlength, Nat.sub_self]

/-- At most 4096 positions lie at distinct places. -/
theorem placeOf_lt_succ (n k : Nat) (hpos : 0 < n) (hn : n ≤ 4096) : placeOf n k < placeOf n (k + 1) := by
  have hstep : (k * 4096 + n) / n ≤ (k + 1) * 4096 / n := Nat.div_le_div_right (by omega)
  rw [Nat.add_div_right _ hpos] at hstep
  exact hstep

theorem placeOf_self (n : Nat) (hpos : 0 < n) : placeOf n n = 4096 := Nat.mul_div_cancel_left _ hpos

theorem arbSegment_length (sharp : Nat) (fm : FastMode) (ps : List Position) (k : Nat) :
    (arbSegment sharp fm ps k).length = placeOf ps.length (k + 1) - placeOf ps.length k := by
  simp [arbSegment]

/-- A segment starts with the value of its position: held there, or interpolated over no distance. -/
theorem arbSegment_head (sharp : Nat) (fm : FastMode) (ps : List Position) (k : Nat) (p : Position)
    (hp : ps[k]? = some p) (hlen : placeOf ps.length k < placeOf ps.length (k + 1)) :
    (arbSegment sharp fm ps k)[0]? = some (p.vout : Int) := by
  have hcur : ps.getD k ⟨0, 0, false⟩ = p := by rw [List.getD_eq_getElem?_getD, hp]; rfl
  have hzero : ∀ b : Nat, rdiv 0 b = 0 := fun b => by simp [rdiv]
  simp only [arbSegment, hcur, List.getElem?_map, List.getElem?_range (Nat.sub_pos_of_lt hlen), Option.map_some]
  simp [hzero]

/-- Settles O60: the segments, laid end to end, cover 4096 cells, and each starts at its position's place with its position's
value. -/
theorem arbitrarySourcePassesThroughPositions : Obligations.ArbitrarySourcePassesThroughPositions := by
  intro sharp fm ps k p hle hp
  have hk : k < ps.length := (List.getElem?_eq_some_iff.mp hp).1
  have hpos : 0 < ps.length := by omega
  have hlt := fun k => placeOf_lt_succ ps.length k hpos hle
  obtain ⟨hlength, hplace⟩ := flatMap_range_places (placeOf ps.length) (arbSegment sharp fm ps) ps.length
    (by simp [placeOf, fdiv]) (fun k => Nat.le_of_lt (hlt k)) fun k _ => arbSegment_length sharp fm ps k
  rw [arbSrc, if_neg (by omega)]
  exact ⟨hlength.trans (placeOf_self _ hpos), (hplace k hk (hlt k)).trans (arbSegment_head sharp fm ps k p hp (hlt k))⟩

end Sys2Proof.Machine
end

section
/-! The status bank and its FLAGS view (10_state.md R36, R39). -/

namespace Sys2Proof.Machine

/-! ### The FLAGS view as a number (10_state.md R36) -/

theorem bitsValue_lt (bs : List Bool) : bitsValue bs < 2 ^ bs.length := by
  induction bs with
  | nil => exact Nat.one_pos
  | cons b rest ih =>
    have hb := b.toNat_le
    rw [bitsValue, List.length_cons, pow_succ]
    omega

/-- The 17 bits fill the view, so none is lost. -/
theorem flagsView_toNat (s : State) : (flagsView s).toNat = bitsValue (flagBits s) :=
  (BitVec.toNat_ofNat _ _).trans (Nat.mod_eq_of_lt (bitsValue_lt (flagBits s)))

theorem ite_eq_mul_toNat (b : Bool) (n : Nat) : (if b then n else 0) = n * b.toNat := by
  cases b <;> simp

theorem ite_second_eq_mul_bit (h : Half) (n : Nat) : (if h = .second then n else 0) = n * h.bit.toNat := by
  cases h <;> simp [Half.bit]

/-! ### Narrow values in a 48-bit answer -/

/-- Zero extension to 48 bits keeps a value. -/
theorem setWidth_48_toNat {n : Nat} (x : BitVec n) (hn : n ≤ 48) : (x.setWidth 48).toNat = x.toNat :=
  BitVec.toNat_setWidth_of_le hn

/-- FASTMODE sign-extended reads back as -1..3 (10_state.md R39). -/
theorem ofInt_48_fastMode_toInt (m : FastMode) : (BitVec.ofInt 48 m.toInt).toInt = m.toInt := by
  cases m with
  | slow => decide
  | fast t => cases t <;> decide

/-- The three PWM registers side by side, as a number. -/
theorem pwmWord_toNat (r : BitVec 2) (d p : BitVec 16) :
    ((r ++ d ++ p).setWidth 48).toNat = r.toNat * 2 ^ 32 + d.toNat * 2 ^ 16 + p.toNat := by
  have hd := d.isLt
  have hp := p.isLt
  rw [setWidth_48_toNat _ (by decide), BitVec.toNat_append, BitVec.toNat_append, ← Nat.shiftLeft_add_eq_or_of_lt hp,
    ← Nat.shiftLeft_add_eq_or_of_lt hd, Nat.shiftLeft_eq, Nat.shiftLeft_eq]
  ring

/-- Settles O39: each answer is its register widened; FLAGS is the sum of its bits at their places. -/
theorem statusBankFollowsItsTable : Obligations.StatusBankFollowsItsTable := by
  intro s
  refine ⟨ofInt_48_fastMode_toInt _, rfl, setWidth_48_toNat _ (by decide), setWidth_48_toNat _ (by decide),
    setWidth_48_toNat _ (by decide), ?flags, setWidth_48_toNat _ (by decide), setWidth_48_toNat _ (by decide),
    setWidth_48_toNat _ (by decide), setWidth_48_toNat _ (by decide), setWidth_48_toNat _ (by decide),
    setWidth_48_toNat _ (by decide), setWidth_48_toNat _ (by decide), ?pin, setWidth_48_toNat _ (by decide),
    pwmWord_toNat _ _ _⟩
  case flags =>
    change ((flagsView s).setWidth 48).toNat = _
    rw [setWidth_48_toNat _ (by decide), flagsView_toNat]
    simp only [flagBits, bitsValue, ite_eq_mul_toNat, ite_second_eq_mul_bit]
    ring
  case pin =>
    exact (setWidth_48_toNat _ (by decide)).trans (BitVec.toNat_ofBool _)

end Sys2Proof.Machine
end

section
/-! The registers, flags and step sizes APPLY derives (40_clock_and_tier.md R121, R122, R129, 44_phase_accumulator.md R241 to
R244, 43_downsampler_and_tier_buffers.md R225, 45_sequencer_and_sync_square.md R288). -/

namespace Sys2Proof.Machine

/-! ### The numbers of a derivation (40_clock_and_tier.md R129) -/

theorem isExtreme_iff (d : Nat) : isExtreme d = true ↔ d = 0 ∨ d = 1000000 := by
  simp [isExtreme, dutyFull]

theorem isNot50_iff (d : Nat) : isNot50 d = true ↔ d ≠ 500000 := by
  simp [isNot50]

theorem isDither_iff (fm : FastMode) (f : Nat) : isDither fm f = true ↔ fm = .slow ∧ f < 100000 := by
  simp only [isDither, Bool.and_eq_true, decide_eq_true_eq]
  rfl

/-- The allowed duty as R241 writes it. -/
theorem allowedDuty_eq (f d rate : Nat) : allowedDuty f d rate =
    if d = 0 ∨ d = 1000000 then d
    else clampNat d (min ((f + rate - 1) / rate) 500000) (1000000 - min ((f + rate - 1) / rate) 500000) := by
  simp only [allowedDuty, isExtreme_iff]
  rfl

theorem allowedDuty_le (f d rate : Nat) (hd : d ≤ 1000000) : allowedDuty f d rate ≤ 1000000 := by
  rw [allowedDuty_eq]
  split
  · exact hd
  · exact (clampNat_mem _ _ _ (by omega)).2.trans (Nat.sub_le _ _)

theorem rdivNat_le_of_le_mul (a b q : Nat) (hb : 0 < b) (h : a ≤ b * q) : rdivNat a b ≤ q := by
  have hlt : 2 * a + b < 2 * b * (q + 1) := by nlinarith
  exact Nat.le_of_lt_succ (Nat.div_lt_of_lt_mul hlt)

theorem stepFor_le (f cn cd rate da : Nat) (h : Half) : stepFor f cn cd rate da h ≤ (2 ^ 32 - 1) * 1000 := by
  rw [stepFor]
  split
  · exact Nat.min_le_right _ _
  · exact Nat.min_le_right _ _

@[simp] theorem slowDerive_step_get (c : Cfg) (f d : Nat) (cal : Bool) (rate : Nat) (h : Half) :
    (slowDerive c f d cal rate).step.get h =
      stepFor f (calFactor c cal).1 (calFactor c cal).2 rate (allowedDuty f d rate) h := by
  simp [slowDerive]

@[simp] theorem slowDerive_ratio_get (c : Cfg) (f d : Nat) (cal : Bool) (rate : Nat) (h : Half) :
    (slowDerive c f d cal rate).ratio.get h =
      ratioFor ((slowDerive c f d cal rate).step.get h) ((slowDerive c f d cal rate).step.get h.other) := by
  simp [slowDerive]

/-- EXTREME is that of the allowed duty on both paths. -/
theorem rateNumbers_extreme (s : State) (fm : FastMode) : (rateNumbers s fm).extreme = isExtreme (rateNumbers s fm).dutyA := by
  cases fm <;> rfl

theorem rateNumbers_dutyA_le (s : State) (fm : FastMode) (hd : s.params.duty.toNat ≤ 1000000) :
    (rateNumbers s fm).dutyA ≤ 1000000 := by
  cases fm with
  | slow => exact allowedDuty_le _ _ _ hd
  | fast k => exact hd

theorem rateNumbers_dutyAct_le (s : State) (fm : FastMode) (hc : s.cfg.valid = true)
    (hd : s.params.duty.toNat ≤ 1000000) : (rateNumbers s fm).dutyAct ≤ 1000000 := by
  cases fm with
  | slow => exact allowedDuty_le _ _ _ hd
  | fast k =>
    exact rdivNat_le_of_le_mul _ _ _ (samplesPerCycle_pos k) (Nat.mul_le_mul_right _ (countFor_le s.cfg hc _ .first k))

theorem rateNumbers_step_le (s : State) (fm : FastMode) (h : Half) : (rateNumbers s fm).step.get h ≤ (2 ^ 32 - 1) * 1000 := by
  cases fm with
  | slow => exact (slowDerive_step_get _ _ _ _ _ h).trans_le (stepFor_le _ _ _ _ _ h)
  | fast k => cases h <;> exact Nat.zero_le _

/-! ### The registers that hold them -/

/-- In `t` the derived registers, flags and step sizes are those derived from `s` for FASTMODE `fm`. -/
structure HoldsRates (s t : State) (fm : FastMode) : Prop where
  derived   : t.derived = (commonOf s fm (rateNumbers s fm)).regs
  extreme   : t.flags.extreme = (rateNumbers s fm).extreme
  dutyNot50 : t.flags.dutyNot50 = isNot50 (rateNumbers s fm).dutyA
  ditherOn  : t.flags.ditherOn = isDither fm s.params.fTarget.toNat
  incBase   : ∀ h, t.seq.incBase.get h = wholeStep ((rateNumbers s fm).step.get h)
  incFrac   : ∀ h, t.seq.incFrac.get h = (rateNumbers s fm).step.get h % 1000
  ratio     : ∀ h, t.seq.ratio.get h = fit (.ratio h) 52 ((rateNumbers s fm).ratio.get h)
  increment : ∀ h, t.seq.increment.get h = nominalStep t.flags.ditherOn ((rateNumbers s fm).step.get h)

/-- What the mode switch into a wave installs, for the parameters of a state `s` it leaves alone. -/
theorem holdsRates_of_waveStarted (s u t : State) (hp : u.params = s.params) (hw : u.waypoints = s.waypoints)
    (hc : u.cfg = s.cfg) (hW : WaveStarted u t) : HoldsRates s t t.seq.fastMode := by
  have hrates := rateNumbers_congr s u (selectTier u) hp hc
  have hcommon := commonOf_congr s u (selectTier u) hp hw hc
  have hhalf := fun h => halfRecordOf_congr s u (selectTier u) h hp hw hc
  rw [hW.fastMode]
  constructor
  case derived => rw [hW.derived, hcommon]
  case extreme => rw [hW.extreme, hrates]
  case dutyNot50 => rw [hW.dutyNot50, hrates]
  case ditherOn => rw [hW.ditherOn, hp]
  case incBase => exact fun h => by rw [hW.incBase, startedHalf, hhalf]; rfl
  case incFrac => exact fun h => by rw [hW.incFrac, startedHalf, hhalf]; rfl
  case ratio => exact fun h => by rw [hW.ratio, startedHalf, hhalf]; rfl
  case increment => exact fun h => by rw [hW.increment, startedHalf, hhalf, hW.ditherOn, hp]; rfl

theorem holdsRates_apply (s : State) (hlt : s.params.shape.toNat < 4) :
    HoldsRates s (modeSwitch (applyStart s)) (modeSwitch (applyStart s)).seq.fastMode :=
  holdsRates_of_waveStarted s _ _ (applyStart_params_of_wave s (shapeOf_ne_noise_of_lt _ hlt)) (applyStart_waypoints s)
    (applyStart_cfg s) (waveStarted_apply s hlt)

theorem ofNat_20_toNat (d : Nat) (hd : d ≤ 1000000) : (BitVec.ofNat 20 d).toNat = d := by
  rw [BitVec.toNat_ofNat, Nat.mod_eq_of_lt (by omega)]

theorem HoldsRates.dutyA_toNat {s t : State} {fm : FastMode} (hR : HoldsRates s t fm)
    (hd : s.params.duty.toNat ≤ 1000000) : t.derived.dutyA.toNat = (rateNumbers s fm).dutyA := by
  rw [hR.derived]
  exact ofNat_20_toNat _ (rateNumbers_dutyA_le s fm hd)

theorem HoldsRates.dutyAct_toNat {s t : State} {fm : FastMode} (hR : HoldsRates s t fm) (hc : s.cfg.valid = true)
    (hd : s.params.duty.toNat ≤ 1000000) : t.derived.dutyAct.toNat = (rateNumbers s fm).dutyAct := by
  rw [hR.derived]
  exact ofNat_20_toNat _ (rateNumbers_dutyAct_le s fm hc hd)

theorem HoldsRates.tc_toNat {s t : State} {fm : FastMode} (hR : HoldsRates s t fm) (h : (rateNumbers s fm).tc < 2 ^ 32) :
    t.derived.tc.toNat = (rateNumbers s fm).tc := by
  rw [hR.derived]
  exact fit_of_lt _ _ _ h

theorem HoldsRates.fActual_toNat {s t : State} {fm : FastMode} (hR : HoldsRates s t fm)
    (h : (rateNumbers s fm).fActual < 2 ^ 48) : t.derived.fActual.toNat = (rateNumbers s fm).fActual := by
  rw [hR.derived]
  exact fit_of_lt _ _ _ h

/-- A whole step of capped thousandths needs no second cap. -/
theorem wholeStep_toNat (i : Nat) (hi : i ≤ (2 ^ 32 - 1) * 1000) : (wholeStep i).toNat = i / 1000 := by
  have hle : i / 1000 ≤ 2 ^ 32 - 1 := by omega
  rw [wholeStep, fdiv, Nat.min_eq_left hle, BitVec.toNat_ofNat, Nat.mod_eq_of_lt (by omega)]

theorem HoldsRates.incBase_toNat {s t : State} {fm : FastMode} (hR : HoldsRates s t fm) (h : Half) :
    (t.seq.incBase.get h).toNat = (rateNumbers s fm).step.get h / 1000 := by
  rw [hR.incBase, wholeStep_toNat _ (rateNumbers_step_le s fm h)]

theorem HoldsRates.increment_toNat {s t : State} {fm : FastMode} (hR : HoldsRates s t fm) (h : Half) :
    (t.seq.increment.get h).toNat = if t.flags.ditherOn then (rateNumbers s fm).step.get h / 1000
      else min (((rateNumbers s fm).step.get h + 500) / 1000) (2 ^ 32 - 1) := by
  rw [hR.increment, nominalStep]
  split
  · exact wholeStep_toNat _ (rateNumbers_step_le s fm h)
  · exact roundStep_toNat _

/-! ### The two paths and the delay, written out -/

/-- The divisor of a fast tier fits its register. -/
theorem freqToTc_lt (c : Cfg) (hc : c.valid = true) (f : Nat) (k : Tier) : freqToTc c f k < 2 ^ 32 := by
  obtain ⟨-, -, -, -, hle, hlt⟩ := Cfg.valid_timer c hc
  exact Nat.lt_of_le_of_lt (clampNat_mem _ _ _ hle).2 hlt

/-- The share of a half as R241 writes it. -/
theorem dutyShare_eq (da : Nat) (h : Half) : dutyShare da h = if h = .first then da else 1000000 - da := by
  cases h <;> rfl

theorem calFactor_fst (c : Cfg) (b : BitVec 48) : (calFactor c (b == 1)).1 = if b = 1 then c.calNum else 1 := by
  simp only [calFactor, beq_iff_eq]
  split <;> rfl

theorem calFactor_snd (c : Cfg) (b : BitVec 48) : (calFactor c (b == 1)).2 = if b = 1 then c.calDen else 1 := by
  simp only [calFactor, beq_iff_eq]
  split <;> rfl

/-- The frequency of the slow path from its duty and steps, as R244 writes it. -/
theorem slowActual_eq (c : Cfg) (f d : Nat) (cal : Bool) (step : Half → Nat)
    (hstep : ∀ h, (slowDerive c f d cal (fSlow c)).step.get h = step h) :
    slowActual c cal (slowDerive c f d cal (fSlow c)) =
      if allowedDuty f d (fSlow c) = 0 ∨ allowedDuty f d (fSlow c) = 1000000 then
        rdivNat (fSlow c * 1000000 * step (if allowedDuty f d (fSlow c) = 1000000 then .first else .second) *
          (calFactor c cal).2) (2 ^ 32 * 1000 * (calFactor c cal).1)
      else if step .first + step .second = 0 then 0
      else rdivNat (fSlow c * 1000000 * step .first * step .second * (calFactor c cal).2)
        (2 ^ 32 * 1000 * (step .first + step .second) * (calFactor c cal).1) := by
  have hfirst : (slowDerive c f d cal (fSlow c)).step.h0 = step .first := hstep .first
  have hsecond : (slowDerive c f d cal (fSlow c)).step.h1 = step .second := hstep .second
  have hduty : (slowDerive c f d cal (fSlow c)).dutyA = allowedDuty f d (fSlow c) := rfl
  have hext : (slowDerive c f d cal (fSlow c)).extreme = isExtreme (allowedDuty f d (fSlow c)) := rfl
  simp only [slowActual, hfirst, hsecond, hduty, hext, isExtreme_iff, apply_ite step]
  rfl

/-- SQ_DELAY as R288 writes it, where it fits its register. -/
theorem HoldsRates.sqDelay_toNat {s t : State} {fm : FastMode} (hR : HoldsRates s t fm) (tc dutyAct : Nat)
    (htc : (rateNumbers s fm).tc = tc) (hact : (rateNumbers s fm).dutyAct = dutyAct)
    (hfit : sqDelayFor s.cfg tc dutyAct t.flags.extreme < 2 ^ 32) :
    t.derived.sqDelay.toNat = sqDelayFor s.cfg tc dutyAct t.flags.extreme := by
  rw [hR.derived, hR.extreme] at *
  subst htc hact
  exact fit_of_lt _ _ _ hfit

/-- The slow path's numbers, written out from its step sizes `step`. -/
theorem HoldsRates.slow {s t : State} (hR : HoldsRates s t .slow)
    (step : Half → Nat) (hstep : ∀ h, (rateNumbers s .slow).step.get h = step h) (h : Half) :
    (t.seq.incBase.get h).toNat = step h / 1000 ∧ t.seq.incFrac.get h = step h % 1000 ∧
      (t.seq.increment.get h).toNat =
        (if s.params.fTarget.toNat < 100000 then step h / 1000 else min ((step h + 500) / 1000) (2 ^ 32 - 1)) ∧
      ((if 0 < step h then step h.other * 65536 / step h else 65536) < 2 ^ 52 →
        (t.seq.ratio.get h).toNat = if 0 < step h then step h.other * 65536 / step h else 65536) := by
  have hratio : (rateNumbers s .slow).ratio.get h = if 0 < step h then step h.other * 65536 / step h else 65536 := by
    rw [← hstep, ← hstep]
    exact slowDerive_ratio_get _ _ _ _ _ h
  refine ⟨by rw [hR.incBase_toNat, hstep], by rw [hR.incFrac, hstep], ?increment, fun hfit => ?ratio⟩
  case increment =>
    rw [hR.increment_toNat, hstep, hR.ditherOn]
    simp only [isDither_iff, true_and]
  case ratio => rw [hR.ratio, hratio, fit_of_lt _ _ _ hfit]

/-- A fast tier's steps are all 0 and its ratios 1. -/
theorem HoldsRates.fast {s t : State} {k : Tier} (hR : HoldsRates s t (.fast k)) (h : Half) :
    t.seq.increment.get h = 0 ∧ t.seq.incBase.get h = 0 ∧ t.seq.incFrac.get h = 0 ∧ t.seq.ratio.get h = 65536 := by
  have hstep : (rateNumbers s (.fast k)).step.get h = 0 := by cases h <;> rfl
  have hratio : (rateNumbers s (.fast k)).ratio.get h = 65536 := by cases h <;> rfl
  have hdither : t.flags.ditherOn = false := hR.ditherOn
  rw [hR.increment, hR.incBase, hR.incFrac, hR.ratio, hstep, hratio, hdither]
  exact ⟨by decide, by decide, by decide, BitVec.eq_of_toNat_eq (fit_of_lt _ _ _ (by decide))⟩

/-- Settles O46: the registers hold the numbers derived for the selected tier, and each number is its formula. -/
theorem applyDerivesTheRegisters : Obligations.ApplyDerivesTheRegisters := by
  intro s hc hlt hd f d
  have hR := holdsRates_apply s hlt
  have hW := waveStarted_apply s hlt
  have hcount : ∀ k, dutyCount (modeSwitch (applyStart s)) .first k = countFor s.cfg d .first k := fun k => by
    rw [dutyCount_waveStarted _ _ (by rwa [applyStart_cfg]) hW, applyStart_cfg,
      applyStart_params_of_wave s (shapeOf_ne_noise_of_lt _ hlt)]
  refine ⟨_, exec_applyAll s, ?_⟩
  generalize modeSwitch (applyStart s) = t at hR hcount ⊢
  clear hW
  refine ⟨by rw [hR.ditherOn, isDither_iff], by rw [hR.dutyNot50, isNot50_iff, hR.dutyA_toNat hd],
    by rw [hR.extreme, rateNumbers_extreme, isExtreme_iff, hR.dutyA_toNat hd], fun k hk => ?fast, fun hs => ?slow, ?delay⟩
  case fast =>
    rw [hk] at hR
    refine ⟨hR.tc_toNat (freqToTc_lt s.cfg hc f k), hR.fActual_toNat, ?_, hR.dutyA_toNat hd, hR.fast⟩
    rw [hcount]
    exact hR.dutyAct_toNat hc hd
  case slow =>
    intro rate dmin da cn cd share ideal step freq
    rw [hs] at hR
    have hda : allowedDuty f d (fSlow s.cfg) = da := allowedDuty_eq f d rate
    have hcn : (calFactor s.cfg (s.params.exact == 1)).1 = cn := calFactor_fst s.cfg _
    have hcd : (calFactor s.cfg (s.params.exact == 1)).2 = cd := calFactor_snd s.cfg _
    have hshare : ∀ h, dutyShare da h = share h := dutyShare_eq da
    have hstep : ∀ h, (rateNumbers s .slow).step.get h = step h := fun h => by
      refine (slowDerive_step_get _ _ _ _ _ h).trans ?_
      rw [hda, hcn, hcd, stepFor, hshare, hshare]
      rfl
    have hfreq : (rateNumbers s .slow).fActual = freq := by
      refine (slowActual_eq s.cfg f d _ step hstep).trans ?_
      rw [hda, hcn, hcd]
      rfl
    refine ⟨hR.tc_toNat, fun hfit => ?_, (hR.dutyA_toNat hd).trans hda, ?_, hR.slow step hstep⟩
    · rw [← hfreq] at hfit ⊢
      exact hR.fActual_toNat hfit
    · rw [hR.derived]
      rfl
  case delay =>
    intro tc x fn fd delay hfit
    have htc : (rateNumbers s t.seq.fastMode).tc = tc := by
      cases hfm : t.seq.fastMode with
      | slow => simp only [tc, hfm, if_true]; rfl
      | fast k =>
        rw [hfm] at hR
        simp only [tc, hfm, reduceCtorEq, if_false]
        exact (hR.tc_toNat (freqToTc_lt s.cfg hc f k)).symm
    have hdelay : (sqDelayFor s.cfg tc t.derived.dutyAct.toNat t.flags.extreme : Int) = delay :=
      Int.toNat_of_nonneg (Int.le_max_left _ _)
    rw [← hdelay] at hfit ⊢
    exact congrArg _ (hR.sqDelay_toNat tc _ htc (hR.dutyAct_toNat hc hd).symm (by omega))

end Sys2Proof.Machine
end
